-- ==== Sys2Proof/Word.lean ====
section
/-! DEFINITION. The byte of the four serial ports (R166, R185). -/

namespace Sys2Proof

/-- One byte as it crosses a port: the port clocks one byte each way at each eight clocks (R166). -/
abbrev Byte := BitVec 8

end Sys2Proof
end

