-- ==== Sys2Proof/Syntax.lean ====
section
/-! DEFINITION. The commands of the DK316: one constructor for each row of spec/opcode_table.json,
and the types of their operands. -/

namespace Sys2Proof

/-- The four serial target ports (R165). -/
inductive Port
  | terminal
  | rail
  | service
  | uplink
  deriving DecidableEq, Repr

/-- A dock position: position `i` is the dock numbered `i + 1` (R1: docks 1 to 64). -/
abbrev DockNo := Fin 64

/-- A slot of the job table: position `i` is the slot numbered `i + 1` (R102: slots 1 to 4). -/
abbrev SlotNo := Fin 4

/-- The four holders of a countdown to which the timebase hands each tick (R150). -/
inductive TickHolder
  /-- the dock table controller: hold and release records (R10) -/
  | docks
  /-- the van job controller: the van windows of open jobs (R123) -/
  | vans
  /-- the fare unit: the comparison with the staged set (R51) -/
  | fares
  /-- the timebase itself: the stale timer (R153) -/
  | stale
  deriving DecidableEq, Repr

/-- What makes the part enter the hold (R162). -/
inductive HoldCause
  /-- the RESET input is asserted -/
  | resetInput
  /-- the main supply falls below its trip level -/
  | mainSupply
  deriving DecidableEq, Repr

/-- The commands: one constructor per row of spec/opcode_table.json, in its order.

The first 34 are request frames (R173). Each carries the port and the bytes the master clocked in AFTER the
frame's first byte, up to the select release; the first byte is the row's kind code (R185, R186), so the row
fixes it. `unknownRequest` carries its first byte too. An answer transfer carries the number of bytes clocked
after the answer-read code (R169). -/
inductive Instr
  | release (port : Port) (bytes : List Byte)
  | hold (port : Port) (bytes : List Byte)
  | holdCancel (port : Port) (bytes : List Byte)
  | quote (port : Port) (bytes : List Byte)
  | topup (port : Port) (bytes : List Byte)
  | cardStatus (port : Port) (bytes : List Byte)
  | reportFault (port : Port) (bytes : List Byte)
  | clearFault (port : Port) (bytes : List Byte)
  | dockRestore (port : Port) (bytes : List Byte)
  | faultStatus (port : Port) (bytes : List Byte)
  | fetchCommand (port : Port) (bytes : List Byte)
  | inserted (port : Port) (bytes : List Byte)
  | removed (port : Port) (bytes : List Byte)
  | lockJam (port : Port) (bytes : List Byte)
  | sensorFault (port : Port) (bytes : List Byte)
  | census (port : Port) (bytes : List Byte)
  | tokenReport (port : Port) (bytes : List Byte)
  | startJob (port : Port) (bytes : List Byte)
  | jobStatus (port : Port) (bytes : List Byte)
  | retireJob (port : Port) (bytes : List Byte)
  | abortJob (port : Port) (bytes : List Byte)
  | configure (port : Port) (bytes : List Byte)
  | clockSet (port : Port) (bytes : List Byte)
  | setMode (port : Port) (bytes : List Byte)
  | cardLoad (port : Port) (bytes : List Byte)
  | cardDrop (port : Port) (bytes : List Byte)
  | tariffStage (port : Port) (bytes : List Byte)
  | journalRead (port : Port) (bytes : List Byte)
  | journalRelease (port : Port) (bytes : List Byte)
  | factoryClear (port : Port) (bytes : List Byte)
  | dockStatus (port : Port) (bytes : List Byte)
  | stationStatus (port : Port) (bytes : List Byte)
  | readNotices (port : Port) (bytes : List Byte)
  | setNoticeEnables (port : Port) (bytes : List Byte)
  /-- a request frame whose first byte `kind` is none of the 34 kinds and not the answer-read code -/
  | unknownRequest (port : Port) (kind : Byte) (bytes : List Byte)
  /-- an answer transfer closed after `clocked` bytes past the answer-read code -/
  | answerRead (port : Port) (clocked : Nat)
  /-- a one-second tick; `takers` are the holders that take it straight after the clock, in that order
  (R150 gives the holders no order among themselves), the others take it later -/
  | tick (takers : List TickHolder)
  | holdExpiry (dock : DockNo)
  | unlockWindowExpiry (dock : DockNo)
  | vanWindowExpiry (slot : SlotNo)
  | staleTimerExpiry
  | tariffSwitch
  | resettlementSweep
  /-- the part enters the hold; `underWay` are the ports with a transfer under way at that moment (R177) -/
  | resetHold (cause : HoldCause) (underWay : List Port)
  | retentionLoss
  | warmReset
  | coldReset
  | selectDuringHold (port : Port)
  | spoiledTransferEnd (port : Port)
  deriving DecidableEq, Repr

end Sys2Proof
end

