-- ==== Sys2Proof/Decode.lean ====
section
/-! DEFINITION. The commands that a word of the table's bits spells, and the command that a whole transfer at a
port is. -/

namespace Sys2Proof

/-- No row of the table gives its command any bits: the commands are transfers and events of the part's pins
and countdowns, and a word spells none of them (assumption log 23). -/
def decodeTableWord (_nbits _w : Nat) : Option Instr := none

/-- The command that a transfer at a port is, from the bytes clocked in up to the select release: the first byte
decides it (R166). The answer-read code makes an answer transfer; the codes 1 to 34 make the request rows in the
order of the authority table (R185); any other first byte makes an UNKNOWN_REQUEST (R186). A transfer of no
bytes is no command: it changes nothing (R166). -/
def transferCommand (port : Port) : List Byte → Option Instr
  | [] => none
  | first :: rest => some <|
    match first.toNat with
    | 1 => .release port rest
    | 2 => .hold port rest
    | 3 => .holdCancel port rest
    | 4 => .quote port rest
    | 5 => .topup port rest
    | 6 => .cardStatus port rest
    | 7 => .reportFault port rest
    | 8 => .clearFault port rest
    | 9 => .dockRestore port rest
    | 10 => .faultStatus port rest
    | 11 => .fetchCommand port rest
    | 12 => .inserted port rest
    | 13 => .removed port rest
    | 14 => .lockJam port rest
    | 15 => .sensorFault port rest
    | 16 => .census port rest
    | 17 => .tokenReport port rest
    | 18 => .startJob port rest
    | 19 => .jobStatus port rest
    | 20 => .retireJob port rest
    | 21 => .abortJob port rest
    | 22 => .configure port rest
    | 23 => .clockSet port rest
    | 24 => .setMode port rest
    | 25 => .cardLoad port rest
    | 26 => .cardDrop port rest
    | 27 => .tariffStage port rest
    | 28 => .journalRead port rest
    | 29 => .journalRelease port rest
    | 30 => .factoryClear port rest
    | 31 => .dockStatus port rest
    | 32 => .stationStatus port rest
    | 33 => .readNotices port rest
    | 34 => .setNoticeEnables port rest
    | 165 => .answerRead port rest.length
    | _ => .unknownRequest port first rest

end Sys2Proof
end

