-- ==== Sys2Proof/Config.lean ====
section
/-! DEFINITION. What the implementation fixes (the sizes of the tables, as the manual's rules give them)
and the free values: what the manual leaves open and the model does not choose. -/

namespace Sys2Proof.Config

/-- The journal ring has 1,024 slots (R129). -/
def ringSlots : Nat := 1024

/-- The last appended sequence number from which the free slots are counted as 0 (R133). -/
def nearEndSeq : Nat := 4294966271

/-- The rail command queue and the open-command records together hold at most 24 (R6). -/
def railPlaces : Nat := 24

/-- The card table holds up to 1,024 entries (R65). -/
def cardPlaces : Nat := 1024

/-- The fault table holds up to 128 entries (R85). -/
def faultPlaces : Nat := 128

/-- Fewer than 32 provisional entries may exist when one is made (R28). -/
def provisionalLimit : Nat := 32

/-- At most 8 docks are HELD (R35, R36). -/
def holdLimit : Nat := 8

/-- The settled-ride list holds up to 64 pairs (R43). -/
def settledPlaces : Nat := 64

/-- A ride outcome list holds up to 8 entries (R24). -/
def outcomePlaces : Nat := 8

/-- The last-reports list holds up to 4 entries (R85). -/
def reportPlaces : Nat := 4

/-- The greatest score of a fault entry (R91). -/
def scoreLimit : Nat := 15

/-- The greatest value of the station clock (R149). -/
def clockMax : Nat := 4294967295

/-- The floor of a card balance (R72). -/
def balanceFloor : Int := -100000

/-- The ceiling of a card balance (R72). -/
def balanceCeiling : Int := 1000000

/-- The ceiling of charged-today (R72). -/
def chargedCeiling : Nat := 1000000

/-- The greatest charge of one ride (R60). -/
def chargeCeiling : Nat := 60000

/-- The greatest duration a fare counts, seventy-two hours (R54). -/
def durationCeiling : Nat := 259200

/-- A frame is at most 512 bytes (R167, R168). -/
def frameLimit : Nat := 512

/-- FREE VALUE. The byte that carries a count which the layout gives one byte and which is above 255.
The manual gives the "records replayed" of a CARD_LOAD answer the width of a count, one byte (R185, R186),
and lets it reach the number of held records (R78): it does not say what the byte is above 255.
DESIGN CHOICE, safe: nothing constrains it (assumption log 3). -/
opaque wideCount : Nat → Byte

end Sys2Proof.Config
end

