-- ==== Sys2Proof/Machine/State.lean ====
section
/-! DEFINITION. The state of the DK316: the records of its nine kinds of block, as the manual's rules give
them, the answers that wait in the answer slots, the pins, and the queue of commands that are waiting. -/

namespace Sys2Proof.Machine

/-! ## Named values -/

/-- The port a release or a hold came from: terminal or uplink (R24). -/
inductive RiderPort
  | terminal
  | uplink
  deriving DecidableEq, Repr

/-- The port a van job came from: service or uplink (R102, R107). -/
inductive CrewPort
  | service
  | uplink
  deriving DecidableEq, Repr

/-- The 34 request kinds, in the order of the authority table (R173). -/
inductive ReqKind
  | release | hold | holdCancel | quote
  | topup
  | cardStatus
  | reportFault
  | clearFault | dockRestore | faultStatus
  | fetchCommand | inserted | removed | lockJam | sensorFault | census | tokenReport
  | startJob | jobStatus | retireJob | abortJob
  | configure | clockSet | setMode | cardLoad | cardDrop | tariffStage | journalRead | journalRelease
  | factoryClear
  | dockStatus | stationStatus | readNotices | setNoticeEnables
  deriving DecidableEq, Repr

/-- The 29 refusal reasons, in the order of the opening file's table (R176, R185). -/
inductive RefusalReason
  | badFrame | unknownRequest | notPermitted | outOfRange | unconfigured | clockUnset | noTariff
  | stationClosed | stationBusy | journalTight | journalReserve | unknownCard | cardBlocked | cardBusy
  | cardHolding | noBike | dockState | dockUnverified | bikeQuarantined | holdLimit | tableFull | railBusy
  | staleLoad | futureLoad | segmentBusy | jobIllegal | jobUnknown | jobOpen | notFound
  deriving DecidableEq, Repr

/-- The sixteen notice kinds, in the order of the opening file's table (R179, R185). -/
inductive Notice
  | rideStarted | releaseLapsed | holdExpired | holdLost | tariffSwitched | linkChanged | journalMode
  | journalWaiting | commandWaiting | censusWanted | jobEnded | quarantine | dockFault | tokenHeld
  | overrun | resetSeen
  deriving DecidableEq, Repr

/-- A set of notice kinds: kind `k` is bit `k − 1` (R179, R185). -/
abbrev NoticeSet := BitVec 16

/-- Dock fault kinds (R1, R16). -/
inductive DockFaultKind
  | lockJam | sensor | tagReader
  deriving DecidableEq, Repr

/-- Fault report categories (R86). -/
inductive Category
  | brakes | frame | tyre | chain | lights | other | tag | forcedRemoval | missing
  deriving DecidableEq, Repr

/-- A set of categories: category `k` is bit `k − 1` (R85, R186). -/
abbrev CategorySet := BitVec 16

/-- Card states (R65). -/
inductive CardState
  | active | debt | barred | lost
  deriving DecidableEq, Repr

/-- Card kinds: a PASS has a pass expiry day, a PAYG card has none (R65). -/
inductive CardKind
  | payg
  | pass (expiry : Int)
  deriving DecidableEq, Repr

/-- Van job kinds (R102). -/
inductive JobKind
  | collect | sweep | deliver | audit
  deriving DecidableEq, Repr

/-- Walk directions (R102). -/
inductive Direction
  | up | down
  deriving DecidableEq, Repr

/-- Walk kinds (R105). -/
inductive Walk
  | wrap | cross
  deriving DecidableEq, Repr

/-- A collect job's handling of faulty bikes (R102, R110). -/
inductive FaultHandling
  | skip | stop
  deriving DecidableEq, Repr

/-- Job states (R102, R104). -/
inductive JobState
  | open | filling | ended
  deriving DecidableEq, Repr

/-- What became of a marked dock (R102). -/
inductive ItemOutcome
  | open | moved | faulted | returned
  deriving DecidableEq, Repr

/-- Station modes (R155). -/
inductive StationMode
  | open | closed
  deriving DecidableEq, Repr

/-- Link states (R153). -/
inductive LinkState
  | online | offline
  deriving DecidableEq, Repr

/-- Journal modes (R136). -/
inductive JournalMode
  | normal | tight | reserve
  deriving DecidableEq, Repr

/-- Answers to an insertion or a token report (R40). -/
inductive ReturnAnswer
  | plain | settled | keepToken
  deriving DecidableEq, Repr

/-- Why a release lapsed (R24). -/
inductive LapseReason
  | expired | notFetched | quarantined | jammed
  deriving DecidableEq, Repr

/-- Why a hold was lost (R24). -/
inductive LossCause
  | quarantined | dockFault | forcedRemoval | missing
  deriving DecidableEq, Repr

/-- The transfer states of a port unit (R165). -/
inductive TransferState
  | quiet | request | answer | spoiled
  deriving DecidableEq, Repr

/-! ## Docks and the rail -/

/-- The ride token (R25, R187). -/
structure Token where
  origin : Nat
  ride : Nat
  card : Nat
  release : Nat
  tariff : Fin 8
  provisional : Bool
  deriving DecidableEq, Repr

/-- What a dock records of its bike: the docked-since time and the token-held flag stand with the bike number
and go with it (R1, R2). -/
structure DockedBike where
  bike : Nat
  since : Nat
  tokenHeld : Bool
  deriving DecidableEq, Repr

/-- A hold record (R1) with the dock's origin-port record (R24). -/
structure HoldRecord where
  card : Nat
  remaining : Nat
  origin : RiderPort
  deriving DecidableEq, Repr

/-- A release record (R1) with the dock's origin-port record (R24). -/
structure ReleaseRecord where
  card : Nat
  ride : Nat
  provisional : Bool
  window : Nat
  fetched : Bool
  origin : RiderPort
  deriving DecidableEq, Repr

/-- The eight dock states, each with the optional fields it carries and no others (R2). -/
inductive DockState
  | absent
  | empty
  | docked (bike : DockedBike)
  | held (bike : DockedBike) (hold : HoldRecord)
  | unlocking (bike : DockedBike) (release : ReleaseRecord)
  | vanHeld (bike : DockedBike) (job : Nat)
  | vanReserved (job : Nat)
  | outOfService (bike : Option DockedBike) (fault : DockFaultKind)
  deriving DecidableEq, Repr

/-- A dock entry (R1). -/
structure Dock where
  state : DockState
  verified : Bool
  deriving DecidableEq, Repr

/-- The commands of the rail command queue (R6). -/
inductive Command
  | unlock (dock : DockNo) (token : Token)
  | batchUnlock (job : Nat) (docks : List DockNo)
  | relock (docks : List DockNo)
  | readToken (dock : DockNo)
  deriving DecidableEq, Repr

/-- The owner of an opening command (R8); it fixes the command's kind: UNLOCK or BATCH_UNLOCK. -/
inductive OpenOwner
  | release (dock : DockNo)
  | job (number : Nat)
  deriving DecidableEq, Repr

/-- An open-command record (R8). -/
structure OpenCommand where
  owner : OpenOwner
  openDocks : List DockNo
  deriving DecidableEq, Repr

/-- The records of the dock table controller. -/
structure Rail where
  /-- the dock table (R1) -/
  docks : Vector Dock 64
  /-- the rail command queue, oldest first (R6) -/
  queue : List Command
  /-- the open-command records, in the order fetched; the fetched-open count is their number (R8) -/
  opens : List OpenCommand
  /-- the dock of the fetched READ_TOKEN that awaits its report (R7) -/
  awaited : Option DockNo
  /-- the resettlement cursor; none is 0, before dock 1 (R1) -/
  cursor : Option DockNo
  deriving DecidableEq, Repr

/-! ## Rides -/

/-- The kind of a ride outcome entry with the fields of that kind (R24). -/
inductive OutcomeKind
  | rideStarted (ride : Nat)
  | releaseLapsed (ride : Nat) (reason : LapseReason)
  | holdExpired
  | holdLost (cause : LossCause)
  deriving DecidableEq, Repr

/-- A ride outcome entry (R24). -/
structure RideOutcome where
  kind : OutcomeKind
  card : Nat
  dock : DockNo
  clock : Nat
  deriving DecidableEq, Repr

/-- The records of the ride controller (R24); the origin-port records stand in the dock entries. -/
structure Rides where
  nextRide : Nat
  /-- (origin station, ride number) pairs, newest last (R43) -/
  settled : List (Nat × Nat)
  terminalOutcomes : List RideOutcome
  uplinkOutcomes : List RideOutcome
  deriving DecidableEq, Repr

/-! ## Fares -/

/-- A defined tariff plan (R48). -/
structure Plan where
  freeMinutes : Nat
  passFreeMinutes : Nat
  graceSeconds : Nat
  blockMinutes : Nat
  blockPrice : Nat
  overstayStart : Nat
  overstayPrice : Nat
  dayCap : Nat
  creditFloor : Nat
  startMinimum : Nat
  deriving DecidableEq, Repr

/-- A staged entry: a plan, or none for the EMPTY marker (R49). -/
structure StagedEntry where
  index : Fin 8
  plan : Option Plan
  deriving DecidableEq, Repr

/-- A staged set that is not empty (R49). -/
structure StagedSet where
  effective : Nat
  entries : List StagedEntry
  deriving DecidableEq, Repr

/-- The records of the fare unit (R49). -/
structure Fares where
  active : Vector (Option Plan) 8
  staged : Option StagedSet
  deriving DecidableEq, Repr

/-- The flags of a fare result, in the order of R132. -/
structure FareFlags where
  deferred : Bool
  clockSuspect : Bool
  durationClamped : Bool
  saturated : Bool
  balanceLimit : Bool
  tariffSubstituted : Bool
  deriving DecidableEq, Repr

/-! ## Cards and faults -/

/-- A card entry (R65). -/
structure CardEntry where
  number : Nat
  state : CardState
  kind : CardKind
  tariff : Fin 8
  discount : Nat
  balance : Int
  charged : Nat
  day : Int
  provisional : Bool
  refCount : Nat
  inFlight : Option DockNo
  holdDock : Option DockNo
  lastUse : Nat
  deriving DecidableEq, Repr

/-- A report entry of a last-reports list (R85). -/
structure ReportEntry where
  source : Port
  card : Option Nat
  category : Category
  time : Nat
  deriving DecidableEq, Repr

/-- A fault entry (R85). -/
structure FaultEntry where
  bike : Nat
  score : Nat
  categories : CategorySet
  reports : List ReportEntry
  quarantined : Bool
  firstReport : Nat
  deriving DecidableEq, Repr

/-! ## Van jobs -/

/-- A set of segment numbers: segment `k` is bit `k − 1` (R102, R186). -/
abbrev SegmentSet := BitVec 8

/-- End conditions, in the order of R102. -/
structure EndConditions where
  short : Bool
  walkLimit : Bool
  late : Bool
  stoppedAtFault : Bool
  mismatch : Bool
  dockFault : Bool
  aborted : Bool
  reset : Bool
  deriving DecidableEq, Repr

/-- An item of a marked dock list (R102). -/
structure MarkedItem where
  dock : DockNo
  outcome : ItemOutcome
  deriving DecidableEq, Repr

/-- An item of a moved-bike list; no bike is EMPTY, which an AUDIT may record (R102). -/
structure MovedBike where
  bike : Option Nat
  unsettled : Bool
  deriving DecidableEq, Repr

/-- A job record (R102). The moved count is the length of the moved-bike list (R132). -/
structure JobRecord where
  number : Nat
  origin : CrewPort
  kind : JobKind
  start : DockNo
  direction : Direction
  walk : Walk
  faultHandling : Option FaultHandling
  requested : Nat
  marked : List MarkedItem
  moved : List MovedBike
  expected : Option (List (Option Nat))
  position : DockNo
  mismatch : Option DockNo
  claimed : SegmentSet
  batchFetched : Option Bool
  state : JobState
  conditions : EndConditions
  window : Option Nat
  deriving DecidableEq, Repr

/-- The records of the van job controller (R102, R103, R106). -/
structure Vans where
  jobs : Vector (Option JobRecord) 4
  nextJob : Nat
  /-- the segment claim map: for each segment the open job that claims it (R106) -/
  claims : Vector (Option Nat) 8
  deriving DecidableEq, Repr

/-! ## The journal -/

/-- The fields of a RIDE_END record (R132, R62). -/
structure RideEnd where
  card : Nat
  bike : Nat
  dock : DockNo
  origin : Nat
  ride : Nat
  release : Nat
  duration : Nat
  tariff : Fin 8
  baseBlocks : Nat
  overstayBlocks : Nat
  gross : Nat
  discounted : Nat
  capped : Nat
  surchargeCharged : Nat
  baseCharged : Nat
  charge : Nat
  delta : Int
  balanceAfter : Int
  unrecovered : Int
  returnDay : Int
  flags : FareFlags
  deriving DecidableEq, Repr

/-- The fields of a JOB_END record (R132). -/
structure JobEnd where
  number : Nat
  kind : JobKind
  origin : CrewPort
  conditions : EndConditions
  requested : Nat
  position : DockNo
  mismatch : Option DockNo
  moved : List MovedBike
  deriving DecidableEq, Repr

/-- The seven kinds of journal record with the fields of each (R130 to R132). -/
inductive RecordBody
  | release (card : Nat) (dock : DockNo) (bike : Nat) (ride : Nat) (origin : RiderPort) (provisional : Bool)
  | rideEnd (fields : RideEnd)
  | topup (card : Nat) (amount : Int) (balanceAfter : Int) (stateAfter : CardState)
  | fault (bike : Nat) (dock : Option DockNo) (category : Category) (source : Port) (card : Option Nat)
      (scoreAfter : Nat) (quarantinedAfter : Bool)
  | faultClear (bike : Nat) (port : Port)
  | jobEnd (fields : JobEnd)
  | clockSet (oldTime : Option Nat) (newTime : Nat)
  deriving DecidableEq, Repr

/-- A journal record: every record carries its sequence number and its time (R131). -/
structure Record where
  seq : Nat
  time : Nat
  body : RecordBody
  deriving DecidableEq, Repr

/-- The records of the journal controller (R129 to R136). -/
structure Journal where
  /-- the held records, oldest first (R129) -/
  records : List Record
  /-- the ring slot, 1 to 1,024, at which the run of held slots begins (R129) -/
  firstSlot : Nat
  nextSeq : Nat
  /-- the released-through marker (R145) -/
  marker : Nat
  /-- the reservation count (R134) -/
  reserved : Nat
  mode : JournalMode
  deriving DecidableEq, Repr

/-! ## The timebase -/

/-- The configuration (R156). Segment sizes are absent as the empty list, and N is then 0. -/
structure StationConfig where
  configured : Bool
  station : Option Nat
  segments : List Nat
  unlockWindow : Nat
  holdDuration : Nat
  vanWindow : Nat
  stalePeriod : Nat
  threshold : Nat
  provisionalReleases : Bool
  dayOffset : Int
  deriving DecidableEq, Repr

/-- For each holder of a countdown, whether a tick has been handed to it that it has not yet taken (R150:
each holder takes the tick as an event of its own). -/
structure HandedTicks where
  docks : Bool
  vans : Bool
  fares : Bool
  stale : Bool
  deriving DecidableEq, Repr

/-- The records of the station timebase (R149 to R163) and the two inputs that hold the part. -/
structure Timebase where
  clock : Nat
  clockValid : Bool
  config : StationConfig
  stationMode : StationMode
  link : LinkState
  staleTimer : Nat
  retention : Bool
  /-- the RESET input is asserted (R162) -/
  resetInput : Bool
  /-- the main supply is below its trip level (R162) -/
  mainLow : Bool
  handed : HandedTicks
  deriving DecidableEq, Repr

/-! ## Answers and port units -/

/-- The figures of a QUOTE answer (R64, R186). -/
structure QuoteView where
  baseBlocks : Nat
  overstayBlocks : Nat
  gross : Nat
  discounted : Nat
  capped : Nat
  surchargeCharged : Nat
  baseCharged : Nat
  charge : Nat
  tariffUsed : Fin 8
  freeMinutes : Nat
  passApplied : Bool
  flags : FareFlags
  deriving DecidableEq, Repr

/-- A CARD_STATUS answer for one card (R83): the entry, whether its pass is valid today and its
charged-today as judged for today; the last two are absent while the clock is invalid. -/
structure CardView where
  entry : CardEntry
  passValid : Option Bool
  chargedToday : Option Nat
  deriving DecidableEq, Repr

/-- A CARD_STATUS answer without a card (R83). -/
structure CardTotals where
  entries : Nat
  provisional : Nat
  pinned : Nat
  active : Nat
  debt : Nat
  barred : Nat
  lost : Nat
  deriving DecidableEq, Repr

/-- The answer to an accepted CARD_LOAD (R78). -/
structure LoadView where
  created : Bool
  evicted : Option Nat
  balance : Int
  charged : Nat
  day : Int
  state : CardState
  replayed : Nat
  refCount : Nat
  deriving DecidableEq, Repr

/-- One item of a FAULT_STATUS list (R100). -/
structure FaultLine where
  bike : Nat
  score : Nat
  quarantined : Bool
  deriving DecidableEq, Repr

/-- One line of a JOB_STATUS answer without a number (R126). -/
structure JobLine where
  number : Nat
  kind : JobKind
  origin : CrewPort
  state : JobState
  conditions : EndConditions
  requested : Nat
  moved : Nat
  window : Option Nat
  deriving DecidableEq, Repr

/-- The number of docks 1 to N in each state other than ABSENT (R161). -/
structure DockCounts where
  empty : Nat
  docked : Nat
  held : Nat
  unlocking : Nat
  vanHeld : Nat
  vanReserved : Nat
  outOfService : Nat
  deriving DecidableEq, Repr

/-- The STATION_STATUS answer (R161, R186). -/
structure StationView where
  clockValid : Bool
  stationMode : StationMode
  link : LinkState
  staleTimer : Nat
  clock : Nat
  today : Option Int
  config : StationConfig
  mode : JournalMode
  freeSlots : Nat
  heldRecords : Nat
  heldSlots : Nat
  reservedSlots : Nat
  lastSeq : Nat
  marker : Nat
  docks : DockCounts
  tokenHeld : Nat
  unverified : Nat
  holdCount : Nat
  queueLength : Nat
  fetchedOpen : Nat
  readQueued : Bool
  readAwaited : Bool
  openJobs : Nat
  endedJobs : Nat
  freeJobSlots : Nat
  cards : Nat
  provisional : Nat
  pinned : Nat
  faults : Nat
  quarantined : Nat
  defined : BitVec 8
  staged : Option (Nat × Nat)
  deriving DecidableEq, Repr

/-- The pins that hold a card, as the CARD_BUSY refusal of a CARD_DROP names them (R80). -/
structure PinView where
  refCount : Bool
  inFlight : Bool
  holdDock : Bool
  deriving DecidableEq, Repr

/-- The body of an ACCEPT, by what the owners' rules say the answer carries (R168, R186). -/
inductive AcceptBody
  /-- RELEASE (R30) -/
  | released (dock : DockNo) (ride : Nat) (evicted : Option Nat)
  /-- HOLD (R36) -/
  | held (dock : DockNo) (remaining : Nat)
  /-- HOLD_CANCEL (R38) -/
  | cancelled (dock : DockNo)
  /-- QUOTE (R64) -/
  | quoted (view : QuoteView)
  /-- TOPUP (R81) -/
  | toppedUp (balance : Int) (state : CardState)
  /-- CARD_STATUS with a card (R83) -/
  | card (view : CardView)
  /-- CARD_STATUS without a card (R83) -/
  | cardTotals (totals : CardTotals)
  /-- REPORT_FAULT (R87) -/
  | faultReported (bike : Nat) (counted quarantined created : Bool) (score : Nat) (replaced : Option Nat)
  /-- CLEAR_FAULT (R99) -/
  | faultCleared (score : Nat) (categories : CategorySet) (quarantined : Bool)
  /-- FAULT_STATUS with a bike (R100) -/
  | faultEntry (entry : FaultEntry)
  /-- FAULT_STATUS with a list start (R100) -/
  | faultList (entries quarantined threshold : Nat) (items : List FaultLine) (more : Bool)
  /-- FETCH_COMMAND; no command is the kind NONE (R7) -/
  | fetched (command : Option Command) (left : Nat)
  /-- INSERTED and TOKEN_REPORT (R40, R46) -/
  | returned (answer : ReturnAnswer) (dock : DockNo) (pair : Option (Nat × Nat)) (charge : Option Nat)
  /-- REMOVED (R11) -/
  | removed (bike : Nat)
  /-- CENSUS (R17) -/
  | census (verified missing : Nat)
  /-- START_JOB (R109) -/
  | jobStarted (number : Nat) (state : JobState) (marked : List DockNo) (position : DockNo)
      (conditions : EndConditions) (mismatch : Option DockNo)
  /-- JOB_STATUS with a number (R126) -/
  | job (record : JobRecord)
  /-- JOB_STATUS without a number (R126) -/
  | jobLines (free : Nat) (lines : List JobLine)
  /-- ABORT_JOB (R124) -/
  | aborted (conditions : EndConditions) (moved returned : Nat)
  /-- CONFIGURE (R157) -/
  | configured (config : StationConfig)
  /-- CLOCK_SET (R151) -/
  | clockSet (oldTime : Option Nat) (newTime : Nat)
  /-- SET_MODE (R155) -/
  | modeSet (before after : StationMode)
  /-- CARD_LOAD (R78) -/
  | cardLoaded (view : LoadView)
  /-- TARIFF_STAGE (R50) -/
  | staged (effective entries : Nat) (replaced : Option Nat)
  /-- JOURNAL_READ (R143) -/
  | journal (records : List Record) (lastSeq marker heldRecords : Nat) (more : Bool)
  /-- JOURNAL_RELEASE (R144) -/
  | journalReleased (freed slots marker free : Nat) (mode : JournalMode)
  /-- FACTORY_CLEAR (R164) -/
  | cleared (clock : Nat) (valid : Bool)
  /-- DOCK_STATUS with a dock (R21) -/
  | dock (entry : Dock)
  /-- DOCK_STATUS without a dock (R21) -/
  | dockList (entries : List Dock)
  /-- STATION_STATUS (R161) -/
  | station (view : StationView)
  /-- READ_NOTICES; the outcome list is present at the terminal and uplink ports (R181) -/
  | notices (reported cleared enabled : NoticeSet) (outcomes : Option (List RideOutcome))
  /-- SET_NOTICE_ENABLES (R183) -/
  | enables (enabled pending : NoticeSet)
  /-- CARD_DROP, DOCK_RESTORE, LOCK_JAM, SENSOR_FAULT, RETIRE_JOB: an empty body (R186) -/
  | nothing
  deriving DecidableEq, Repr

/-- The outcome of a request with its body: the body of a REFUSE is empty but for CARD_DROP's pins (R168). -/
inductive Reply
  | accept (body : AcceptBody)
  | refuse (reason : RefusalReason) (pins : Option PinView)
  deriving DecidableEq, Repr

/-- An answer frame (R168). -/
structure AnswerFrame where
  kind : Byte
  tag : Byte
  reply : Reply
  deriving DecidableEq, Repr

/-- A port unit: its answer slot (none is EMPTY), its transfer state (R165), its pending and enable sets
(R179), its attention line (R180) and what it sent on data out in the last transfer taken whole. -/
structure PortUnit where
  slot : Option AnswerFrame
  transfer : TransferState
  pendingSet : NoticeSet
  enableSet : NoticeSet
  attention : Bool
  dataOut : List Byte
  deriving DecidableEq, Repr

/-- The four port units (R165). -/
structure PortUnits where
  terminal : PortUnit
  rail : PortUnit
  service : PortUnit
  uplink : PortUnit
  deriving DecidableEq, Repr

/-! ## The machine -/

/-- The state of the DK316. -/
structure State where
  /-- the commands that are waiting, first in, first out -/
  pending : List Instr
  rail : Rail
  rides : Rides
  fares : Fares
  /-- the card table, kept in ascending card number (R65: the order is not visible) -/
  cards : List CardEntry
  /-- the fault table, kept in ascending bike number (R85: the order is not visible) -/
  faults : List FaultEntry
  vans : Vans
  journal : Journal
  time : Timebase
  ports : PortUnits
  deriving DecidableEq, Repr

/-- Why the machine stops with a fault: never. The manual gives the DK316 no event in which it stops; every
request is answered, discarded or disregarded, and every other event has its effect. -/
inductive Fault
  deriving DecidableEq, Repr

/-- Why a command has no meaning. -/
inductive Refusal
  /-- raised by exec for a command that has no meaning yet; safe: nothing can be proved of a next state -/
  | notModelled (mnemonic : String)
  /-- raised by UNKNOWN_REQUEST for a first byte that is one of the 34 kinds or the answer-read code: such a
  frame is another row's command, never this one's (R172); safe: the command cannot occur -/
  | notThisRow
  deriving DecidableEq, Repr

/-! ## Reset -/

/-- The configuration's values after a cold reset (R156). -/
def StationConfig.cold : StationConfig :=
  { configured := false, station := none, segments := [], unlockWindow := 30, holdDuration := 600,
    vanWindow := 300, stalePeriod := 300, threshold := 4, provisionalReleases := false, dayOffset := 0 }

/-- A port unit after a cold reset: an EMPTY slot, QUIET, RESET_SEEN pending, all sixteen kinds enabled, the
attention line asserted (R177, R184). -/
def PortUnit.cold : PortUnit :=
  { slot := none, transfer := .quiet, pendingSet := 0x8000, enableSet := 0xFFFF, attention := true,
    dataOut := [] }

/-- The machine right after a cold reset, with no command waiting (R22, R47, R49, R84, R101, R128, R147,
R163, R177, R184). -/
def State.reset : State :=
  { pending := []
    rail := { docks := Vector.replicate 64 ⟨.absent, false⟩, queue := [], opens := [], awaited := none,
              cursor := none }
    rides := { nextRide := 1, settled := [], terminalOutcomes := [], uplinkOutcomes := [] }
    fares := { active := Vector.replicate 8 none, staged := none }
    cards := []
    faults := []
    vans := { jobs := Vector.replicate 4 none, nextJob := 1, claims := Vector.replicate 8 none }
    journal := { records := [], firstSlot := 1, nextSeq := 1, marker := 0, reserved := 0, mode := .normal }
    time := { clock := 0, clockValid := false, config := StationConfig.cold, stationMode := .closed,
              link := .offline, staleTimer := 300, retention := true, resetInput := false, mainLow := false,
              handed := ⟨false, false, false, false⟩ }
    ports := ⟨PortUnit.cold, PortUnit.cold, PortUnit.cold, PortUnit.cold⟩ }

end Sys2Proof.Machine
end

