-- ==== Sys2Proof/Machine/Flags.lean ====
section
/-! DEFINITION. Sets of named values and the figures judged from counts: notice sets, category sets, segment
sets, end conditions, the journal mode. -/

namespace Sys2Proof.Machine

/-- The code of a notice kind, 1 to 16 in the order of the opening file's table (R185). -/
def Notice.code : Notice → Nat
  | .rideStarted => 1
  | .releaseLapsed => 2
  | .holdExpired => 3
  | .holdLost => 4
  | .tariffSwitched => 5
  | .linkChanged => 6
  | .journalMode => 7
  | .journalWaiting => 8
  | .commandWaiting => 9
  | .censusWanted => 10
  | .jobEnded => 11
  | .quarantine => 12
  | .dockFault => 13
  | .tokenHeld => 14
  | .overrun => 15
  | .resetSeen => 16

/-- The notice set holding one kind: bit `code − 1` (R185). -/
def Notice.single (k : Notice) : NoticeSet := BitVec.twoPow 16 (k.code - 1)

/-- Whether a notice set holds a kind (R179). -/
def NoticeSet.has (s : NoticeSet) (k : Notice) : Bool := s.getLsbD (k.code - 1)

/-- The set of the kinds a list names; a kind named more than once counts once (R181). -/
def noticeSetOf : List Notice → NoticeSet
  | [] => 0
  | k :: ks => k.single ||| noticeSetOf ks

/-- All sixteen kinds (R184). -/
def allNotices : NoticeSet := 0xFFFF

/-- The code of a category (R185). -/
def Category.code : Category → Nat
  | .brakes => 1
  | .frame => 2
  | .tyre => 3
  | .chain => 4
  | .lights => 5
  | .other => 6
  | .tag => 7
  | .forcedRemoval => 8
  | .missing => 9

/-- The weight of a category; MISSING has none and scores nothing (R86). -/
def Category.weight : Category → Nat
  | .brakes => 4
  | .frame => 4
  | .tyre => 2
  | .chain => 2
  | .lights => 1
  | .other => 1
  | .tag => 2
  | .forcedRemoval => 3
  | .missing => 0

/-- The rider column of R86. -/
def Category.rider : Category → Bool
  | .brakes | .frame | .tyre | .chain | .lights | .other => true
  | .tag | .forcedRemoval | .missing => false

/-- The crew column of R86. -/
def Category.crew : Category → Bool
  | .brakes | .frame | .tyre | .chain | .lights | .other | .tag => true
  | .forcedRemoval | .missing => false

/-- The category set holding one category (R186). -/
def Category.single (c : Category) : CategorySet := BitVec.twoPow 16 (c.code - 1)

/-- The segment set holding the segment of a 0-based index (R186: segment k in bit k − 1). -/
def segmentBit (k : Nat) : SegmentSet := BitVec.twoPow 8 k

/-- No end condition: the job is done (R102). -/
def EndConditions.none : EndConditions := ⟨false, false, false, false, false, false, false, false⟩

/-- No fare flag. -/
def FareFlags.none : FareFlags := ⟨false, false, false, false, false, false⟩

/-- The journal mode that a free-slot count gives (R136). -/
def modeOfFree (free : Nat) : JournalMode :=
  if 257 ≤ free then .normal else if 129 ≤ free then .tight else .reserve

end Sys2Proof.Machine
end

