-- ==== Sys2Proof/Machine/Ops.lean ====
section
/-! DEFINITION. The operations every chapter shares: reading and writing docks, ports, cards, faults and jobs;
setting notices; appending and reserving in the journal; the rail command queue and the fetched-open account;
and what every event does at its end. -/

namespace Sys2Proof.Machine

/-! ## Numbering -/

/-- All 64 dock positions in ascending dock number (R1). -/
def allDocks : List DockNo := List.finRange 64

/-- The four job slots in ascending slot number (R102). -/
def allSlots : List SlotNo := List.finRange 4

/-- The four ports. -/
def allPorts : List Port := [.terminal, .rail, .service, .uplink]

/-- The port of a rider port. -/
def RiderPort.port : RiderPort → Port
  | .terminal => .terminal
  | .uplink => .uplink

/-- The port of a crew port. -/
def CrewPort.port : CrewPort → Port
  | .service => .service
  | .uplink => .uplink

/-- The rider port of a request that stage 3 let pass at the terminal or uplink port (R173). -/
def riderPortOf : Port → RiderPort
  | .terminal => .terminal
  | .rail | .service | .uplink => .uplink

/-- The crew port of a request that stage 3 let pass at the service or uplink port (R173). -/
def crewPortOf : Port → CrewPort
  | .service => .service
  | .terminal | .rail | .uplink => .uplink

/-- The first of the elements that no other is better than: `better` is a strict order. -/
def pickBest {α : Type} (better : α → α → Bool) : List α → Option α
  | [] => none
  | x :: xs =>
    match pickBest better xs with
    | none => some x
    | some y => if better y x then some y else some x

/-! ## Time -/

/-- The part is held: RESET is asserted or the main supply is low (R162). -/
def State.held (s : State) : Bool := s.time.resetInput || s.time.mainLow

/-- The clock value of an event where the clock is valid, and 0 where it is not (R5, R71, R90, R131). -/
def State.stamp (s : State) : Nat := if s.time.clockValid then s.time.clock else 0

/-- The day index of a clock value: the value plus the day offset, divided by 86,400, rounded down (R152). -/
def State.dayIndex (s : State) (t : Nat) : Int := ((t : Int) + s.time.config.dayOffset) / 86400

/-- Today: the day index of the clock's present value (R152); read only where the clock is valid. -/
def State.today (s : State) : Int := s.dayIndex s.time.clock

/-- The configured dock count N: the sum of the segment sizes (R156). -/
def StationConfig.dockCount (c : StationConfig) : Nat := c.segments.sum

/-! ## Ports and notices -/

def PortUnits.get (u : PortUnits) : Port → PortUnit
  | .terminal => u.terminal
  | .rail => u.rail
  | .service => u.service
  | .uplink => u.uplink

def PortUnits.set (u : PortUnits) (p : Port) (x : PortUnit) : PortUnits :=
  match p with
  | .terminal => { u with terminal := x }
  | .rail => { u with rail := x }
  | .service => { u with service := x }
  | .uplink => { u with uplink := x }

def State.port (s : State) (p : Port) : PortUnit := s.ports.get p

def State.setPort (p : Port) (x : PortUnit) (s : State) : State := { s with ports := s.ports.set p x }

/-- A notice kind is set at a port: it is added to the port's pending set, whether or not it is enabled; a
kind already pending stays pending (R179). -/
def State.notify (p : Port) (k : Notice) (s : State) : State :=
  s.setPort p { s.port p with pendingSet := (s.port p).pendingSet ||| k.single }

/-- The attention line that a port's sets give: asserted while a pending kind is enabled (R180). -/
def PortUnit.lineOf (u : PortUnit) : Bool := u.pendingSet &&& u.enableSet != 0

/-- The line of a port is reckoned at the end of an event that changed either of its sets, and stands through
every other event (R180). -/
def reckonLine (before after : PortUnit) : PortUnit :=
  if before.pendingSet = after.pendingSet ∧ before.enableSet = after.enableSet then after
  else { after with attention := after.lineOf }

/-- The four attention lines at the end of an event that began in `before` (R180). -/
def State.reckonLines (s before : State) : State :=
  { s with ports :=
    { terminal := reckonLine before.ports.terminal s.ports.terminal
      rail := reckonLine before.ports.rail s.ports.rail
      service := reckonLine before.ports.service s.ports.service
      uplink := reckonLine before.ports.uplink s.ports.uplink } }

/-- Push an entry on a ride outcome list: newest last; with 8 entries the oldest is dropped (R24). -/
def pushOutcome (o : RideOutcome) (l : List RideOutcome) : List RideOutcome :=
  if Config.outcomePlaces ≤ l.length then l.drop (l.length + 1 - Config.outcomePlaces) ++ [o] else l ++ [o]

/-- The notice kind a ride outcome entry goes with (R24). -/
def OutcomeKind.notice : OutcomeKind → Notice
  | .rideStarted _ => .rideStarted
  | .releaseLapsed _ _ => .releaseLapsed
  | .holdExpired => .holdExpired
  | .holdLost _ => .holdLost

/-- RIDE_STARTED, RELEASE_LAPSED, HOLD_EXPIRED or HOLD_LOST is set at a rider port and its entry is pushed on
the port's ride outcome list in the same event (R24). The clock value is that of the event (log 17). -/
def State.outcome (p : RiderPort) (kind : OutcomeKind) (card : Nat) (dock : DockNo) (s : State) : State :=
  let o : RideOutcome := { kind := kind, card := card, dock := dock, clock := s.time.clock }
  let rides :=
    match p with
    | .terminal => { s.rides with terminalOutcomes := pushOutcome o s.rides.terminalOutcomes }
    | .uplink => { s.rides with uplinkOutcomes := pushOutcome o s.rides.uplinkOutcomes }
  State.notify p.port kind.notice { s with rides := rides }

/-! ## Cards -/

/-- Look a card up by its number (R67). -/
def findCard (n : Nat) (cards : List CardEntry) : Option CardEntry := cards.find? (fun c => c.number == n)

def State.card (s : State) (n : Nat) : Option CardEntry := findCard n s.cards

/-- Change the entry of a card, if it has one. -/
def updateCard (n : Nat) (f : CardEntry → CardEntry) (cards : List CardEntry) : List CardEntry :=
  cards.map (fun c => if c.number = n then f c else c)

def State.modifyCard (n : Nat) (f : CardEntry → CardEntry) (s : State) : State :=
  { s with cards := updateCard n f s.cards }

/-- Make an entry, at its place in ascending card number. -/
def insertCard (e : CardEntry) : List CardEntry → List CardEntry
  | [] => [e]
  | c :: cs => if e.number < c.number then e :: c :: cs else c :: insertCard e cs

/-- Remove an entry whole. -/
def eraseCard (n : Nat) (cards : List CardEntry) : List CardEntry := cards.filter (fun c => c.number != n)

/-- Pinned: named by a held record, or with an in-flight dock or a hold dock (R70). -/
def CardEntry.pinned (c : CardEntry) : Bool :=
  decide (0 < c.refCount) || c.inFlight.isSome || c.holdDock.isSome

/-- The order of eviction: the earliest last-use time, then the lowest card number (R70). -/
def evictsFirst (a b : CardEntry) : Bool :=
  decide (a.lastUse < b.lastUse) || (decide (a.lastUse = b.lastUse) && decide (a.number < b.number))

/-- The entry a full table would evict (R70). -/
def evictee (cards : List CardEntry) : Option CardEntry :=
  pickBest evictsFirst (cards.filter (fun c => !c.pinned))

/-- Room for a new entry: the cards left and the card evicted, or nothing where every entry of a full table
is pinned (R70). -/
def roomForCard (cards : List CardEntry) : Option (List CardEntry × Option Nat) :=
  if cards.length < Config.cardPlaces then some (cards, none)
  else
    match evictee cards with
    | some c => some (eraseCard c.number cards, some c.number)
    | none => none

def State.provisionalCount (s : State) : Nat := s.cards.countP (fun c => c.provisional)

/-! ## The journal -/

/-- The size of a record in slots (R130). -/
def RecordBody.slots : RecordBody → Nat
  | .release .. => 1
  | .rideEnd _ => 2
  | .topup .. => 1
  | .fault .. => 1
  | .faultClear .. => 1
  | .jobEnd j => 1 + (j.moved.length + 7) / 8
  | .clockSet .. => 1

/-- The card a record names, if it names one (R68, R130). -/
def RecordBody.card? : RecordBody → Option Nat
  | .release card .. => some card
  | .rideEnd f => some f.card
  | .topup card .. => some card
  | .fault _ _ _ _ card _ _ => card
  | .faultClear .. => none
  | .jobEnd _ => none
  | .clockSet .. => none

def Record.slots (r : Record) : Nat := r.body.slots

/-- Whether a record names a card (R68). -/
def Record.names (r : Record) (card : Nat) : Bool := r.body.card? == some card

/-- The number of slots a run of records holds (R129). -/
def slotsOf (records : List Record) : Nat := (records.map Record.slots).sum

/-- The number of records that name a card (R68). -/
def namingCount (card : Nat) (records : List Record) : Nat := records.countP (fun r => r.names card)

def Journal.heldSlots (j : Journal) : Nat := slotsOf j.records

/-- The last appended sequence number (R133). -/
def Journal.lastSeq (j : Journal) : Nat := j.nextSeq - 1

/-- The free-slot count: 1,024 less the held and the reserved slots, or 0 near the end of the sequence numbers
(R135, R133). -/
def Journal.free (j : Journal) : Nat :=
  if Config.nearEndSeq ≤ j.lastSeq then 0 else Config.ringSlots - (j.heldSlots + j.reserved)

def State.freeSlots (s : State) : Nat := s.journal.free

/-- A record is appended: it takes the next sequence number and its time, it becomes the newest held record,
the reference count of the entry of the card it names rises by one, and JOURNAL_WAITING is set at the uplink
port (R137, R68). -/
def State.append (body : RecordBody) (s : State) : State :=
  let r : Record := { seq := s.journal.nextSeq, time := s.stamp, body := body }
  let cards :=
    match body.card? with
    | some n => updateCard n (fun c => { c with refCount := c.refCount + 1 }) s.cards
    | none => s.cards
  State.notify .uplink .journalWaiting
    { s with
      journal := { s.journal with records := s.journal.records ++ [r], nextSeq := s.journal.nextSeq + 1 }
      cards := cards }

/-- A record outside any reservation is appended where it finds its slots free, and otherwise goes unrecorded
(R139, R140). -/
def State.appendIfRoom (body : RecordBody) (s : State) : State :=
  if body.slots ≤ s.freeSlots then s.append body else s

/-- Slots are set aside for a record to come (R134). -/
def State.reserve (n : Nat) (s : State) : State :=
  { s with journal := { s.journal with reserved := s.journal.reserved + n } }

/-- Slots set aside are given up, with or without their record (R134, R141). -/
def State.unreserve (n : Nat) (s : State) : State :=
  { s with journal := { s.journal with reserved := s.journal.reserved - n } }

/-- A record is appended into a reservation, whose unused slots are freed (R138). -/
def State.appendReserved (size : Nat) (body : RecordBody) (s : State) : State :=
  (s.unreserve size).append body

/-! ## The rail command queue and the fetched-open account -/

/-- Room for an UNLOCK, a BATCH_UNLOCK or a READ_TOKEN: the queue length plus the fetched-open count is below
24 (R6). -/
def Rail.hasRoom (r : Rail) : Bool := decide (r.queue.length + r.opens.length < Config.railPlaces)

/-- A command of any kind is appended, and COMMAND_WAITING is set at the rail port (R6). -/
def State.pushCommand (c : Command) (s : State) : State :=
  State.notify .rail .commandWaiting { s with rail := { s.rail with queue := s.rail.queue ++ [c] } }

/-- The opening command of an owner. -/
def Command.ownedBy : Command → OpenOwner → Bool
  | .unlock d _, .release d' => d == d'
  | .batchUnlock j _, .job j' => j == j'
  | _, _ => false

/-- Take a dock out of a queued opening command; a command left naming no dock is withdrawn (R11). -/
def Command.withoutOpening (d : DockNo) : Command → Option Command
  | .unlock d' t => if d' = d then none else some (.unlock d' t)
  | .batchUnlock j ds =>
    match ds.filter (fun x => x != d) with
    | [] => none
    | d' :: ds' => some (.batchUnlock j (d' :: ds'))
  | .relock ds => some (.relock ds)
  | .readToken d' => some (.readToken d')

/-- Take a dock out of a queued RELOCK; a RELOCK left naming no dock is withdrawn (R13, R160). -/
def Command.withoutRelock (d : DockNo) : Command → Option Command
  | .relock ds =>
    match ds.filter (fun x => x != d) with
    | [] => none
    | d' :: ds' => some (.relock (d' :: ds'))
  | .unlock d' t => some (.unlock d' t)
  | .batchUnlock j ds => some (.batchUnlock j ds)
  | .readToken d' => some (.readToken d')

/-- A dock is resolved on its owner's open-command record: it leaves the open dock list, and a record whose
list empties is closed (R8). -/
def resolveOpen (owner : OpenOwner) (d : DockNo) : List OpenCommand → List OpenCommand
  | [] => []
  | o :: os =>
    if o.owner = owner then
      match o.openDocks.filter (fun x => x != d) with
      | [] => os
      | d' :: ds' => { o with openDocks := d' :: ds' } :: os
    else o :: resolveOpen owner d os

/-- A dock leaves the command that was to open it: out of the queued command where it is unfetched (R11), off
the open-command record of its owner where it is fetched (R8). -/
def State.resolveDock (owner : OpenOwner) (d : DockNo) (s : State) : State :=
  { s with rail :=
    { s.rail with
      queue := s.rail.queue.filterMap (Command.withoutOpening d)
      opens := resolveOpen owner d s.rail.opens } }

/-- A dock is taken out of every queued RELOCK (R13, R160). -/
def State.dropRelock (d : DockNo) (s : State) : State :=
  { s with rail := { s.rail with queue := s.rail.queue.filterMap (Command.withoutRelock d) } }

/-- The docks of a list in ascending order, each once (R6: a RELOCK's list). -/
def ascending (ds : List DockNo) : List DockNo := allDocks.filter (fun d => ds.contains d)

/-- The owner of an opening command gives it up before every dock is resolved (R9): unfetched, the command is
withdrawn; fetched, its open-command record is closed and one RELOCK naming the docks still open is appended in
its place. -/
def State.giveUp (owner : OpenOwner) (fetched : Bool) (s : State) : State :=
  if fetched then
    match s.rail.opens.find? (fun o => o.owner == owner) with
    | some o =>
      State.pushCommand (.relock (ascending o.openDocks))
        { s with rail := { s.rail with opens := s.rail.opens.eraseP (fun o => o.owner == owner) } }
    | none => s
  else { s with rail := { s.rail with queue := s.rail.queue.filter (fun c => !c.ownedBy owner) } }

/-! ## Docks -/

/-- What a dock records of its bike (R2). -/
def DockState.bike? : DockState → Option DockedBike
  | .absent | .empty | .vanReserved _ => none
  | .docked b | .held b _ | .unlocking b _ | .vanHeld b _ => some b
  | .outOfService b _ => b

/-- The bike of a token-held dock. -/
def DockState.heldToken? (st : DockState) : Option Nat :=
  match st.bike? with
  | some b => if b.tokenHeld then some b.bike else none
  | none => none

def DockState.tokenHeld (st : DockState) : Bool := st.heldToken?.isSome

/-- Write the token-held flag of a dock that records a bike, leaving its state as it stands (R46). -/
def DockState.withToken (flag : Bool) : DockState → DockState
  | .absent => .absent
  | .empty => .empty
  | .docked b => .docked { b with tokenHeld := flag }
  | .held b h => .held { b with tokenHeld := flag } h
  | .unlocking b r => .unlocking { b with tokenHeld := flag } r
  | .vanHeld b j => .vanHeld { b with tokenHeld := flag } j
  | .vanReserved j => .vanReserved j
  | .outOfService b k => .outOfService (b.map (fun x => { x with tokenHeld := flag })) k

def DockState.isAbsent : DockState → Bool
  | .absent => true
  | .empty | .docked _ | .held _ _ | .unlocking _ _ | .vanHeld _ _ | .vanReserved _ | .outOfService _ _ => false

def DockState.isEmpty : DockState → Bool
  | .empty => true
  | .absent | .docked _ | .held _ _ | .unlocking _ _ | .vanHeld _ _ | .vanReserved _ | .outOfService _ _ => false

def DockState.isDocked : DockState → Bool
  | .docked _ => true
  | .absent | .empty | .held _ _ | .unlocking _ _ | .vanHeld _ _ | .vanReserved _ | .outOfService _ _ => false

def DockState.isHeld : DockState → Bool
  | .held _ _ => true
  | .absent | .empty | .docked _ | .unlocking _ _ | .vanHeld _ _ | .vanReserved _ | .outOfService _ _ => false

def DockState.isUnlocking : DockState → Bool
  | .unlocking _ _ => true
  | .absent | .empty | .docked _ | .held _ _ | .vanHeld _ _ | .vanReserved _ | .outOfService _ _ => false

def DockState.isVanHeld : DockState → Bool
  | .vanHeld _ _ => true
  | .absent | .empty | .docked _ | .held _ _ | .unlocking _ _ | .vanReserved _ | .outOfService _ _ => false

def DockState.isVanReserved : DockState → Bool
  | .vanReserved _ => true
  | .absent | .empty | .docked _ | .held _ _ | .unlocking _ _ | .vanHeld _ _ | .outOfService _ _ => false

def DockState.isOutOfService : DockState → Bool
  | .outOfService _ _ => true
  | .absent | .empty | .docked _ | .held _ _ | .unlocking _ _ | .vanHeld _ _ | .vanReserved _ => false

def State.dock (s : State) (d : DockNo) : Dock := s.rail.docks[d]

/-- A READ_TOKEN for a dock whose token-held flag clears is withdrawn, and a wait for its report ends (R5). -/
def Rail.dropRead (d : DockNo) (r : Rail) : Rail :=
  { r with
    queue := r.queue.filter (fun c => c != .readToken d)
    awaited := if r.awaited = some d then none else r.awaited }

/-- Write a dock entry. Where the token-held flag of the bike it recorded clears, what R5 says of a READ_TOKEN
for the dock is done in the same event. -/
def Rail.putDock (d : DockNo) (x : Dock) (r : Rail) : Rail :=
  let held := (r.docks[d]).state.heldToken?
  let r' := { r with docks := r.docks.set d x }
  if held.isSome ∧ x.state.heldToken? ≠ held then r'.dropRead d else r'

def State.putDock (d : DockNo) (x : Dock) (s : State) : State := { s with rail := s.rail.putDock d x }

/-- Write a dock's state and leave its verified flag as it stands. -/
def State.putDockState (d : DockNo) (st : DockState) (s : State) : State :=
  s.putDock d { s.dock d with state := st }

/-- Rewrite the whole dock table. -/
def mapDocks (f : DockNo → Dock → Dock) (v : Vector Dock 64) : Vector Dock 64 :=
  ⟨(allDocks.map (fun d => f d v[d])).toArray, by simp [allDocks]⟩

/-- The number of docks of which something holds. -/
def State.countDocks (s : State) (f : Dock → Bool) : Nat := allDocks.countP (fun d => f (s.dock d))

/-- The hold count: the number of HELD docks (R35). -/
def State.holdCount (s : State) : Nat := s.countDocks (fun x => x.state.isHeld)

/-! ## Faults -/

/-- The fault entry of a bike (R85). -/
def findFault (bike : Nat) (faults : List FaultEntry) : Option FaultEntry :=
  faults.find? (fun e => e.bike == bike)

def State.fault (s : State) (bike : Nat) : Option FaultEntry := findFault bike s.faults

/-- The bike's fault entry exists and is quarantined (R3). -/
def State.isQuarantined (s : State) (bike : Nat) : Bool :=
  match s.fault bike with
  | some e => e.quarantined
  | none => false

/-- A dock holds an available bike: DOCKED, verified, not token-held, and the bike not quarantined (R3). -/
def State.available (s : State) (d : DockNo) : Bool :=
  match (s.dock d).state with
  | .docked b => (s.dock d).verified && !b.tokenHeld && !s.isQuarantined b.bike
  | .absent | .empty | .held _ _ | .unlocking _ _ | .vanHeld _ _ | .vanReserved _ | .outOfService _ _ => false

/-! ## Tariffs -/

/-- Plan 0 of the active set (R49). -/
def Fares.plan0 (f : Fares) : Option Plan := f.active[(0 : Fin 8)]

/-- The plan a tariff index resolves to, with whether plan 0 stood in for it; nothing while plan 0 is EMPTY
(R52). -/
def Fares.resolve (f : Fares) (i : Fin 8) : Option (Plan × Bool) :=
  match f.plan0 with
  | none => none
  | some p0 =>
    match f.active[i] with
    | some p => some (p, false)
    | none => some (p0, true)

/-! ## Jobs -/

def JobRecord.isOpen (j : JobRecord) : Bool :=
  match j.state with
  | .open | .filling => true
  | .ended => false

def State.job (s : State) (i : SlotNo) : Option JobRecord := s.vans.jobs[i]

def State.setJob (i : SlotNo) (j : Option JobRecord) (s : State) : State :=
  { s with vans := { s.vans with jobs := s.vans.jobs.set i j } }

/-- The slot that holds a job number (R102, R103: at most one does). -/
def State.slotOf (s : State) (number : Nat) : Option SlotNo :=
  allSlots.find? (fun i => match s.job i with
    | some j => j.number == number
    | none => false)

/-! ## The end of an event -/

/-- The journal mode is reckoned afresh at the end of an event that changed the held slots, the reserved slots
or the sequence numbers, and stands through every other; where it differs from the mode before the event,
JOURNAL_MODE is set at the terminal and uplink ports (R136). -/
def State.reckonMode (s before : State) : State :=
  if s.journal.heldSlots = before.journal.heldSlots ∧ s.journal.reserved = before.journal.reserved
      ∧ s.journal.nextSeq = before.journal.nextSeq then s
  else
    let m := modeOfFree s.freeSlots
    let s' := { s with journal := { s.journal with mode := m } }
    if m = before.journal.mode then s'
    else (s'.notify .terminal .journalMode).notify .uplink .journalMode

/-- A READ_TOKEN stands in the queue (R45). -/
def Rail.readQueued (r : Rail) : Bool :=
  r.queue.any (fun c => match c with
    | .readToken _ => true
    | .unlock .. | .batchUnlock .. | .relock .. => false)

/-- DOCKED with its token-held flag set: what the sweep may choose (R45). -/
def State.sweepable (s : State) (d : DockNo) : Bool :=
  match (s.dock d).state with
  | .docked b => b.tokenHeld
  | .absent | .empty | .held _ _ | .unlocking _ _ | .vanHeld _ _ | .vanReserved _ | .outOfService _ _ => false

/-- The docks in the order in which the sweep considers them: those after the cursor in ascending order, then
those up to it, the cursor's own dock last (R45). -/
def sweepOrder : Option DockNo → List DockNo
  | none => allDocks
  | some c => allDocks.filter (fun d => decide (c < d)) ++ allDocks.filter (fun d => decide (d ≤ c))

/-- The dock the sweep reads next, where every condition of R45 holds. -/
def State.sweepChoice (s : State) : Option DockNo :=
  if s.time.config.configured ∧ s.time.clockValid ∧ s.fares.plan0.isSome ∧ s.journal.mode ≠ .reserve
      ∧ !s.rail.readQueued ∧ s.rail.awaited = none ∧ s.rail.hasRoom then
    (sweepOrder s.rail.cursor).find? (fun d => s.sweepable d)
  else none

/-- The resettlement sweep: it moves the cursor onto the dock it chooses and appends READ_TOKEN naming it
(R45). -/
def State.sweep (s : State) : State :=
  match s.sweepChoice with
  | some d => State.pushCommand (.readToken d) { s with rail := { s.rail with cursor := some d } }
  | none => s

/-- The end of an event that began in `before`: the journal mode is reckoned (R136), the sweep acts where its
conditions hold (R45), and the attention lines are reckoned (R180). -/
def State.closeEvent (s before : State) : State :=
  ((s.reckonMode before).sweep).reckonLines before

/-- The end of an event whose own rule says that it changes no record of the station, a refusal (R176) or an overrun
(R170), and of a FACTORY_CLEAR: only the attention lines are reckoned (R180; log 5). -/
def State.closeQuiet (s before : State) : State := s.reckonLines before

end Sys2Proof.Machine
end

