-- ==== Sys2Proof/Machine/Operands.lean ====
section
/-! DEFINITION. The operands of the request frames: the header (R171, R186), the body layout of each of the 34
kinds (stage 4), the ranges of its fields (stage 5), the authority table (stage 3) and the kinds taken while
unconfigured (stage 6). -/

namespace Sys2Proof.Machine

/-! ## The requests, as their owners take them -/

/-- RELEASE and HOLD (R27, R36). -/
structure RideReq where
  card : Nat
  dock : Option DockNo
  deriving DecidableEq, Repr

/-- QUOTE (R64). -/
structure QuoteReq where
  card : Nat
  duration : Nat
  deriving DecidableEq, Repr

/-- TOPUP (R81). -/
structure TopupReq where
  card : Nat
  amount : Int
  deriving DecidableEq, Repr

/-- REPORT_FAULT (R87, R88): the card is present at the terminal port alone. -/
structure ReportReq where
  card : Option Nat
  category : Category
  bike : Option Nat
  dock : Option DockNo
  deriving DecidableEq, Repr

/-- FAULT_STATUS (R100). -/
inductive FaultQuery
  | bike (number : Nat)
  | list (start : Nat)
  deriving DecidableEq, Repr

/-- INSERTED and TOKEN_REPORT (R40, R46). -/
structure ReturnReq where
  dock : DockNo
  bike : Nat
  token : Option Token
  deriving DecidableEq, Repr

/-- REMOVED (R11). -/
structure RemovedReq where
  dock : DockNo
  bike : Nat
  deriving DecidableEq, Repr

/-- SENSOR_FAULT (R16). -/
structure SensorReq where
  dock : DockNo
  fault : DockFaultKind
  deriving DecidableEq, Repr

/-- One item of a CENSUS list (R17, R186). -/
structure CensusItem where
  dock : DockNo
  present : Bool
  tokenPresent : Bool
  bike : Option Nat
  deriving DecidableEq, Repr

/-- CENSUS: no segment is the whole rail; a segment is given by its 0-based index (R17). -/
structure CensusReq where
  scope : Option (Fin 8)
  items : List CensusItem
  deriving DecidableEq, Repr

/-- START_JOB (R107). -/
structure StartReq where
  kind : JobKind
  start : DockNo
  direction : Direction
  walk : Walk
  faultHandling : Option FaultHandling
  requested : Option Nat
  expected : Option (List (Option Nat))
  deriving DecidableEq, Repr

/-- CONFIGURE: each item of R156 but the configured flag, each optional (R157). -/
structure ConfigureReq where
  station : Option Nat
  segments : Option (List Nat)
  unlockWindow : Option Nat
  holdDuration : Option Nat
  vanWindow : Option Nat
  stalePeriod : Option Nat
  threshold : Option Nat
  provisionalReleases : Option Bool
  dayOffset : Option Int
  deriving DecidableEq, Repr

/-- CARD_LOAD (R74). -/
structure LoadReq where
  card : Nat
  balance : Int
  charged : Nat
  day : Int
  state : CardState
  kind : CardKind
  tariff : Fin 8
  discount : Nat
  through : Nat
  deriving DecidableEq, Repr

/-- JOURNAL_READ (R142). -/
structure ReadReq where
  start : Option Nat
  limit : Nat
  deriving DecidableEq, Repr

/-- SET_NOTICE_ENABLES (R183). -/
structure EnablesReq where
  enable : List Notice
  disable : List Notice
  deriving DecidableEq, Repr

/-! ## Reading fields off the wire -/

/-- A reader takes bytes off the front of a body, or finds the body shorter than its layout (R171). -/
abbrev Reader := StateT (List Byte) Option

/-- The unsigned number of some bytes, most significant byte first (R185). -/
def beNat (bs : List Byte) : Nat := bs.foldl (fun n b => 256 * n + b.toNat) 0

/-- The signed number of four bytes of two's complement (R185). -/
def signed32 (n : Nat) : Int := if n < 2147483648 then (n : Int) else (n : Int) - 4294967296

/-- A number of a given width (R185). -/
def rdNat (width : Nat) : Reader Nat := fun bs =>
  if bs.length < width then none else some (beNat (bs.take width), bs.drop width)

/-- A money field, an applied delta or a day index (R185). -/
def rdSigned : Reader Int := do
  let n ← rdNat 4
  pure (signed32 n)

/-- An optional field: a presence byte 0 or 1, then the field where it is 1; any other presence value is a
BAD_FRAME (R185). -/
def rdOpt {α : Type} (field : Reader α) : Reader (Option α) := do
  let n ← rdNat 1
  match n with
  | 0 => pure none
  | 1 => do
    let x ← field
    pure (some x)
  | _ => failure

def rdMany {α : Type} (item : Reader α) : Nat → Reader (List α)
  | 0 => pure []
  | n + 1 => do
    let x ← item
    let xs ← rdMany item n
    pure (x :: xs)

/-- A list: a count byte, then the items (R185). -/
def rdList {α : Type} (item : Reader α) : Reader (List α) := do
  let n ← rdNat 1
  rdMany item n

/-- A body measured against the layout of its kind: shorter or longer is a BAD_FRAME (R171, stage 4). -/
def layout {α : Type} (r : Reader α) (body : List Byte) : Except RefusalReason α :=
  match r body with
  | some (x, []) => .ok x
  | some (_, _ :: _) => .error .badFrame
  | none => .error .badFrame

/-- Fields judged against their ranges (R174, stage 5). -/
def inRange {α : Type} : Option α → Except RefusalReason α
  | some x => .ok x
  | none => .error .outOfRange

/-! ## Ranges and codes (R174, R185) -/

def between (lo hi n : Nat) : Option Nat := if lo ≤ n ∧ n ≤ hi then some n else none

def betweenInt (lo hi n : Int) : Option Int := if lo ≤ n ∧ n ≤ hi then some n else none

/-- A dock number, 1 to 64. -/
def dockOf (n : Nat) : Option DockNo :=
  if h : 1 ≤ n ∧ n ≤ 64 then some ⟨n - 1, by omega⟩ else none

/-- A card number, 1 to 1,099,511,627,775. -/
def cardOf (n : Nat) : Option Nat := between 1 1099511627775 n

/-- A bike number, 1 to 16,777,215. -/
def bikeOf (n : Nat) : Option Nat := between 1 16777215 n

/-- A tariff index, 0 to 7. -/
def tariffOf (n : Nat) : Option (Fin 8) := if h : n < 8 then some ⟨n, h⟩ else none

/-- A job number, 1 to 255. -/
def jobOf (n : Nat) : Option Nat := between 1 255 n

/-- A range check on a field that may be absent. -/
def optOf {α β : Type} (f : α → Option β) : Option α → Option (Option β)
  | none => some none
  | some x => (f x).map some

/-- A range check on every item of a list. -/
def eachOf {α β : Type} (f : α → Option β) : List α → Option (List β)
  | [] => some []
  | x :: xs => do
    let y ← f x
    let ys ← eachOf f xs
    pure (y :: ys)

/-- A flag byte of which `bits` bits are assigned: any other bit set is out of range (R185). -/
def flagsOf (bits n : Nat) : Option Nat := if n < 2 ^ bits then some n else none

def categoryOf : Nat → Option Category
  | 1 => some .brakes
  | 2 => some .frame
  | 3 => some .tyre
  | 4 => some .chain
  | 5 => some .lights
  | 6 => some .other
  | 7 => some .tag
  | 8 => some .forcedRemoval
  | 9 => some .missing
  | _ => none

def cardStateOf : Nat → Option CardState
  | 1 => some .active
  | 2 => some .debt
  | 3 => some .barred
  | 4 => some .lost
  | _ => none

def jobKindOf : Nat → Option JobKind
  | 1 => some .collect
  | 2 => some .sweep
  | 3 => some .deliver
  | 4 => some .audit
  | _ => none

def directionOf : Nat → Option Direction
  | 1 => some .up
  | 2 => some .down
  | _ => none

def walkOf : Nat → Option Walk
  | 1 => some .wrap
  | 2 => some .cross
  | _ => none

def handlingOf : Nat → Option FaultHandling
  | 1 => some .skip
  | 2 => some .stop
  | _ => none

def stationModeOf : Nat → Option StationMode
  | 1 => some .open
  | 2 => some .closed
  | _ => none

/-- SENSOR_FAULT reports SENSOR or TAG_READER; any other kind is out of range (R16). -/
def sensorKindOf : Nat → Option DockFaultKind
  | 2 => some .sensor
  | 3 => some .tagReader
  | _ => none

def noticeOf : Nat → Option Notice
  | 1 => some .rideStarted
  | 2 => some .releaseLapsed
  | 3 => some .holdExpired
  | 4 => some .holdLost
  | 5 => some .tariffSwitched
  | 6 => some .linkChanged
  | 7 => some .journalMode
  | 8 => some .journalWaiting
  | 9 => some .commandWaiting
  | 10 => some .censusWanted
  | 11 => some .jobEnded
  | 12 => some .quarantine
  | 13 => some .dockFault
  | 14 => some .tokenHeld
  | 15 => some .overrun
  | 16 => some .resetSeen
  | _ => none

/-! ## The bodies of the requests (R186), stages 4 and 5 -/

/-- RELEASE and HOLD: card; optional dock. -/
def readRide (body : List Byte) : Except RefusalReason RideReq := do
  let (card, dock) ← layout (do
    let card ← rdNat 5
    let dock ← rdOpt (rdNat 1)
    pure (card, dock)) body
  inRange (do
    let card ← cardOf card
    let dock ← optOf dockOf dock
    pure { card := card, dock := dock })

/-- HOLD_CANCEL and CARD_DROP: card. -/
def readCard (body : List Byte) : Except RefusalReason Nat := do
  let card ← layout (rdNat 5) body
  inRange (cardOf card)

/-- QUOTE: card; duration (4 bytes), 0 to 259,200 (R64). -/
def readQuote (body : List Byte) : Except RefusalReason QuoteReq := do
  let (card, duration) ← layout (do
    let card ← rdNat 5
    let duration ← rdNat 4
    pure (card, duration)) body
  inRange (do
    let card ← cardOf card
    let duration ← between 0 Config.durationCeiling duration
    pure { card := card, duration := duration })

/-- TOPUP: card; amount, 100 to 50,000 (R81). -/
def readTopup (body : List Byte) : Except RefusalReason TopupReq := do
  let (card, amount) ← layout (do
    let card ← rdNat 5
    let amount ← rdSigned
    pure (card, amount)) body
  inRange (do
    let card ← cardOf card
    let amount ← betweenInt 100 50000 amount
    pure { card := card, amount := amount })

/-- CARD_STATUS: optional card. -/
def readOptCard (body : List Byte) : Except RefusalReason (Option Nat) := do
  let card ← layout (rdOpt (rdNat 5)) body
  inRange (optOf cardOf card)

/-- REPORT_FAULT: optional card, present at the terminal port and absent at the service port, any other presence
being refused BAD_FRAME; category; optional bike; optional dock. -/
def readReport (port : Port) (body : List Byte) : Except RefusalReason ReportReq := do
  let (card, category, bike, dock) ← layout (do
    let card ← rdOpt (rdNat 5)
    let category ← rdNat 1
    let bike ← rdOpt (rdNat 3)
    let dock ← rdOpt (rdNat 1)
    pure (card, category, bike, dock)) body
  if card.isSome = decide (port = .terminal) then
    inRange (do
      let card ← optOf cardOf card
      let category ← categoryOf category
      let bike ← optOf bikeOf bike
      let dock ← optOf dockOf dock
      pure { card := card, category := category, bike := bike, dock := dock })
  else .error .badFrame

/-- CLEAR_FAULT: bike. -/
def readBike (body : List Byte) : Except RefusalReason Nat := do
  let bike ← layout (rdNat 3) body
  inRange (bikeOf bike)

/-- DOCK_RESTORE and LOCK_JAM: dock. -/
def readDock (body : List Byte) : Except RefusalReason DockNo := do
  let dock ← layout (rdNat 1) body
  inRange (dockOf dock)

/-- FAULT_STATUS: flag byte, bit 0 set for a bike number and clear for a list start; bike field, which with bit 0
clear is the list start, or 0 to ask for the list from bike 1. -/
def readFaultQuery (body : List Byte) : Except RefusalReason FaultQuery := do
  let (flags, field) ← layout (do
    let flags ← rdNat 1
    let field ← rdNat 3
    pure (flags, field)) body
  inRange (do
    let flags ← flagsOf 1 flags
    if flags = 1 then do
      let bike ← bikeOf field
      pure (.bike bike)
    else if field = 0 then pure (.list 1)
    else do
      let start ← bikeOf field
      pure (.list start))

/-- FETCH_COMMAND, FACTORY_CLEAR, STATION_STATUS: empty. -/
def readEmpty (body : List Byte) : Except RefusalReason Unit := layout (pure ()) body

/-- The fields of a ride token as its 14 bytes give them (R187). -/
structure RawToken where
  origin : Nat
  ride : Nat
  card : Nat
  release : Nat
  flags : Nat
  deriving DecidableEq, Repr

def rdToken : Reader RawToken := do
  let origin ← rdNat 2
  let ride ← rdNat 2
  let card ← rdNat 5
  let release ← rdNat 4
  let flags ← rdNat 1
  pure { origin := origin, ride := ride, card := card, release := release, flags := flags }

/-- A reported token: an origin station, ride number or card number of 0, or a set bit among bits 3 to 6 of the
flag byte, is out of range (R187). -/
def tokenOf (t : RawToken) : Option Token := do
  let origin ← between 1 65535 t.origin
  let ride ← between 1 65535 t.ride
  let card ← cardOf t.card
  if t.flags / 8 % 16 = 0 then
    pure { origin := origin, ride := ride, card := card, release := t.release,
           tariff := ⟨t.flags % 8, Nat.mod_lt _ (by decide)⟩, provisional := decide (128 ≤ t.flags) }
  else none

/-- INSERTED and TOKEN_REPORT: dock; bike; optional token (14 bytes). -/
def readReturn (body : List Byte) : Except RefusalReason ReturnReq := do
  let (dock, bike, token) ← layout (do
    let dock ← rdNat 1
    let bike ← rdNat 3
    let token ← rdOpt rdToken
    pure (dock, bike, token)) body
  inRange (do
    let dock ← dockOf dock
    let bike ← bikeOf bike
    let token ← optOf tokenOf token
    pure { dock := dock, bike := bike, token := token })

/-- REMOVED: dock; bike. -/
def readRemoved (body : List Byte) : Except RefusalReason RemovedReq := do
  let (dock, bike) ← layout (do
    let dock ← rdNat 1
    let bike ← rdNat 3
    pure (dock, bike)) body
  inRange (do
    let dock ← dockOf dock
    let bike ← bikeOf bike
    pure { dock := dock, bike := bike })

/-- SENSOR_FAULT: dock; dock fault kind. -/
def readSensor (body : List Byte) : Except RefusalReason SensorReq := do
  let (dock, fault) ← layout (do
    let dock ← rdNat 1
    let fault ← rdNat 1
    pure (dock, fault)) body
  inRange (do
    let dock ← dockOf dock
    let fault ← sensorKindOf fault
    pure { dock := dock, fault := fault })

/-- A CENSUS item: dock, flag byte, bike. Bit 0 is the present flag, bit 1 the token-present flag, bit 2 says that
a bike number is given; the bike field is 0 where bit 2 is clear, and a bike of 0 with bit 2 set is out of
range (R186; log 13 for a bike field that is not 0 with bit 2 clear). -/
def censusItemOf (raw : Nat × Nat × Nat) : Option CensusItem := do
  let dock ← dockOf raw.1
  let flags ← flagsOf 3 raw.2.1
  let bike ← if 4 ≤ flags then (bikeOf raw.2.2).map some else if raw.2.2 = 0 then some none else none
  pure { dock := dock, present := decide (flags % 2 = 1), tokenPresent := decide (flags / 2 % 2 = 1),
         bike := bike }

/-- A CENSUS scope: 0 for the whole rail, 1 to 8 for a segment. -/
def scopeOf (n : Nat) : Option (Option (Fin 8)) :=
  if n = 0 then some none
  else if h : n ≤ 8 then some (some ⟨n - 1, by omega⟩) else none

/-- CENSUS: scope; item list. -/
def readCensus (body : List Byte) : Except RefusalReason CensusReq := do
  let (scope, items) ← layout (do
    let scope ← rdNat 1
    let items ← rdList (do
      let dock ← rdNat 1
      let flags ← rdNat 1
      let bike ← rdNat 3
      pure (dock, flags, bike))
    pure (scope, items)) body
  inRange (do
    let scope ← scopeOf scope
    let items ← eachOf censusItemOf items
    pure { scope := scope, items := items })

/-- An item of an expected list: a bike number, or 0 for EMPTY (R185). -/
def expectedOf (n : Nat) : Option (Option Nat) := if n = 0 then some none else (bikeOf n).map some

/-- An expected list of more than 16 items is out of range; an empty one reaches the judgement (R108). -/
def expectedListOf (l : List Nat) : Option (List (Option Nat)) :=
  if l.length ≤ 16 then eachOf expectedOf l else none

/-- START_JOB: job kind; start dock; direction; walk; optional fault handling; optional requested count;
optional expected list. -/
def readStart (body : List Byte) : Except RefusalReason StartReq := do
  let (kind, start, direction, walk, handling, requested, expected) ← layout (do
    let kind ← rdNat 1
    let start ← rdNat 1
    let direction ← rdNat 1
    let walk ← rdNat 1
    let handling ← rdOpt (rdNat 1)
    let requested ← rdOpt (rdNat 1)
    let expected ← rdOpt (rdList (rdNat 3))
    pure (kind, start, direction, walk, handling, requested, expected)) body
  inRange (do
    let kind ← jobKindOf kind
    let start ← dockOf start
    let direction ← directionOf direction
    let walk ← walkOf walk
    let handling ← optOf handlingOf handling
    let requested ← optOf (between 1 32) requested
    let expected ← optOf expectedListOf expected
    pure { kind := kind, start := start, direction := direction, walk := walk, faultHandling := handling,
           requested := requested, expected := expected })

/-- JOB_STATUS: optional job number. -/
def readOptJob (body : List Byte) : Except RefusalReason (Option Nat) := do
  let job ← layout (rdOpt (rdNat 1)) body
  inRange (optOf jobOf job)

/-- RETIRE_JOB and ABORT_JOB: job number. -/
def readJob (body : List Byte) : Except RefusalReason Nat := do
  let job ← layout (rdNat 1) body
  inRange (jobOf job)

/-- The unlock window is 15, 30, 45 or 90 seconds (R156). -/
def unlockWindowOf (n : Nat) : Option Nat := if n = 15 ∨ n = 30 ∨ n = 45 ∨ n = 90 then some n else none

/-- A segment list: 1 to 8 sizes, each 1 to 8 (R156, R157). -/
def segmentsOf (l : List Nat) : Option (List Nat) :=
  if 1 ≤ l.length ∧ l.length ≤ 8 then eachOf (between 1 8) l else none

/-- The day offset: −43,200 to +50,400, a multiple of 900 (R156, R157). -/
def offsetOf (n : Int) : Option Int :=
  if -43200 ≤ n ∧ n ≤ 50400 ∧ n % 900 = 0 then some n else none

/-- CONFIGURE: its nine optional items in order; the quarantine threshold takes 1 byte (log 34). -/
def readConfigure (body : List Byte) : Except RefusalReason ConfigureReq := do
  let (station, segments, unlock, hold, van, stale, threshold, flags, offset) ← layout (do
    let station ← rdOpt (rdNat 2)
    let segments ← rdOpt (rdList (rdNat 1))
    let unlock ← rdOpt (rdNat 1)
    let hold ← rdOpt (rdNat 2)
    let van ← rdOpt (rdNat 2)
    let stale ← rdOpt (rdNat 2)
    let threshold ← rdOpt (rdNat 1)
    let flags ← rdOpt (rdNat 1)
    let offset ← rdOpt rdSigned
    pure (station, segments, unlock, hold, van, stale, threshold, flags, offset)) body
  inRange (do
    let station ← optOf (between 1 65535) station
    let segments ← optOf segmentsOf segments
    let unlock ← optOf unlockWindowOf unlock
    let hold ← optOf (between 60 1800) hold
    let van ← optOf (between 60 900) van
    let stale ← optOf (between 60 3600) stale
    let threshold ← optOf (between 2 15) threshold
    let flags ← optOf (flagsOf 1) flags
    let offset ← optOf offsetOf offset
    pure { station := station, segments := segments, unlockWindow := unlock, holdDuration := hold,
           vanWindow := van, stalePeriod := stale, threshold := threshold,
           provisionalReleases := flags.map (fun n => decide (n = 1)), dayOffset := offset })

/-- CLOCK_SET: new time, not refused on its value (R151). -/
def readTime (body : List Byte) : Except RefusalReason Nat := layout (rdNat 4) body

/-- SET_MODE: station mode. -/
def readMode (body : List Byte) : Except RefusalReason StationMode := do
  let mode ← layout (rdNat 1) body
  inRange (stationModeOf mode)

/-- A card kind with its pass expiry day: present with PASS, absent with PAYG (R74). -/
def cardKindOf (code : Nat) (expiry : Option Int) : Option CardKind :=
  match code, expiry with
  | 1, none => some .payg
  | 2, some day => (betweenInt (-1) 49710 day).map .pass
  | _, _ => none

/-- CARD_LOAD: card; office balance; office charged-today; office day; state; kind; optional pass expiry day;
tariff index; discount, of 1 byte (log 34); A (4 bytes). -/
def readLoad (body : List Byte) : Except RefusalReason LoadReq := do
  let (card, balance, charged, day, state, kind, expiry, tariff, discount, through) ← layout (do
    let card ← rdNat 5
    let balance ← rdSigned
    let charged ← rdSigned
    let day ← rdSigned
    let state ← rdNat 1
    let kind ← rdNat 1
    let expiry ← rdOpt rdSigned
    let tariff ← rdNat 1
    let discount ← rdNat 1
    let through ← rdNat 4
    pure (card, balance, charged, day, state, kind, expiry, tariff, discount, through)) body
  inRange (do
    let card ← cardOf card
    let balance ← betweenInt Config.balanceFloor Config.balanceCeiling balance
    let charged ← betweenInt 0 1000000 charged
    let day ← betweenInt (-1) 49710 day
    let state ← cardStateOf state
    let kind ← cardKindOf kind expiry
    let tariff ← tariffOf tariff
    let discount ← between 0 90 discount
    pure { card := card, balance := balance, charged := charged.toNat, day := day, state := state,
           kind := kind, tariff := tariff, discount := discount, through := through })

/-- The fields of a plan as a TARIFF_STAGE entry carries them (R186). -/
structure RawPlan where
  freeMinutes : Nat
  passFreeMinutes : Nat
  graceSeconds : Nat
  blockMinutes : Nat
  blockPrice : Int
  overstayStart : Nat
  overstayPrice : Int
  dayCap : Int
  creditFloor : Int
  startMinimum : Int
  deriving DecidableEq, Repr

/-- A plan is F, Fp, G and B (1 byte each), P (money), H (2 bytes), then S, C, L and M (money). -/
def rdPlan : Reader RawPlan := do
  let f ← rdNat 1
  let fp ← rdNat 1
  let g ← rdNat 1
  let b ← rdNat 1
  let p ← rdSigned
  let h ← rdNat 2
  let s ← rdSigned
  let c ← rdSigned
  let l ← rdSigned
  let m ← rdSigned
  pure { freeMinutes := f, passFreeMinutes := fp, graceSeconds := g, blockMinutes := b, blockPrice := p,
         overstayStart := h, overstayPrice := s, dayCap := c, creditFloor := l, startMinimum := m }

/-- The ranges of a defined plan (R48). -/
def planOf (r : RawPlan) : Option Plan := do
  let f ← between 0 240 r.freeMinutes
  let fp ← between 0 240 r.passFreeMinutes
  let g ← between 0 120 r.graceSeconds
  let b ← between 1 60 r.blockMinutes
  let p ← betweenInt 0 2000 r.blockPrice
  let h ← between 0 1440 r.overstayStart
  let s ← betweenInt 0 5000 r.overstayPrice
  let c ← betweenInt 0 20000 r.dayCap
  let l ← betweenInt 0 5000 r.creditFloor
  let m ← betweenInt 0 2000 r.startMinimum
  pure { freeMinutes := f, passFreeMinutes := fp, graceSeconds := g, blockMinutes := b, blockPrice := p.toNat,
         overstayStart := h, overstayPrice := s.toNat, dayCap := c.toNat, creditFloor := l.toNat,
         startMinimum := m.toNat }

def stagedEntryOf (raw : Nat × Option RawPlan) : Option StagedEntry := do
  let index ← tariffOf raw.1
  let plan ← optOf planOf raw.2
  pure { index := index, plan := plan }

/-- TARIFF_STAGE: effective time; entry list, each entry a tariff index and an optional plan, absent for the
EMPTY marker. A list of more than 8 entries is out of range (R174); an empty list, an index named twice and an
EMPTY marker at index 0 are the owner's to refuse (R50). -/
def readStage (body : List Byte) : Except RefusalReason StagedSet := do
  let (effective, entries) ← layout (do
    let effective ← rdNat 4
    let entries ← rdList (do
      let index ← rdNat 1
      let plan ← rdOpt rdPlan
      pure (index, plan))
    pure (effective, entries)) body
  inRange (if entries.length ≤ 8 then do
      let entries ← eachOf stagedEntryOf entries
      pure { effective := effective, entries := entries }
    else none)

/-- JOURNAL_READ: optional from-sequence; maximum count, 1 to 16 (R142; log 14 for a from-sequence of 0). -/
def readRead (body : List Byte) : Except RefusalReason ReadReq := do
  let (start, limit) ← layout (do
    let start ← rdOpt (rdNat 4)
    let limit ← rdNat 1
    pure (start, limit)) body
  inRange (do
    let limit ← between 1 16 limit
    pure { start := start, limit := limit })

/-- JOURNAL_RELEASE: S (R144: 0 to 4,294,967,295). -/
def readThrough (body : List Byte) : Except RefusalReason Nat := layout (rdNat 4) body

/-- DOCK_STATUS: optional dock. -/
def readOptDock (body : List Byte) : Except RefusalReason (Option DockNo) := do
  let dock ← layout (rdOpt (rdNat 1)) body
  inRange (optOf dockOf dock)

/-- A list of 0 to 16 notice kinds (R181, R183). -/
def noticeListOf (l : List Nat) : Option (List Notice) := if l.length ≤ 16 then eachOf noticeOf l else none

/-- READ_NOTICES: clear list of kind codes. -/
def readClear (body : List Byte) : Except RefusalReason (List Notice) := do
  let kinds ← layout (rdList (rdNat 1)) body
  inRange (noticeListOf kinds)

/-- SET_NOTICE_ENABLES: enable list; disable list. A kind on both lists is out of range (R183). -/
def readEnables (body : List Byte) : Except RefusalReason EnablesReq := do
  let (enable, disable) ← layout (do
    let enable ← rdList (rdNat 1)
    let disable ← rdList (rdNat 1)
    pure (enable, disable)) body
  inRange (do
    let enable ← noticeListOf enable
    let disable ← noticeListOf disable
    if enable.all (fun k => !disable.contains k) then pure { enable := enable, disable := disable } else none)

/-! ## Stages 1, 3 and 6 -/

/-- The code of a request kind: 1 to 34 in the order of the authority table (R185). -/
def ReqKind.code : ReqKind → Byte
  | .release => 1
  | .hold => 2
  | .holdCancel => 3
  | .quote => 4
  | .topup => 5
  | .cardStatus => 6
  | .reportFault => 7
  | .clearFault => 8
  | .dockRestore => 9
  | .faultStatus => 10
  | .fetchCommand => 11
  | .inserted => 12
  | .removed => 13
  | .lockJam => 14
  | .sensorFault => 15
  | .census => 16
  | .tokenReport => 17
  | .startJob => 18
  | .jobStatus => 19
  | .retireJob => 20
  | .abortJob => 21
  | .configure => 22
  | .clockSet => 23
  | .setMode => 24
  | .cardLoad => 25
  | .cardDrop => 26
  | .tariffStage => 27
  | .journalRead => 28
  | .journalRelease => 29
  | .factoryClear => 30
  | .dockStatus => 31
  | .stationStatus => 32
  | .readNotices => 33
  | .setNoticeEnables => 34

/-- The tag of a frame, with 0 in place of a byte that was not received (R171). -/
def tagOf (bytes : List Byte) : Byte := bytes.headD 0

/-- Stage 1 on the bytes after the first: the body of a frame of at least 4 and at most 512 bytes whose body
length is the number of body bytes received (R171, R186); nothing where the frame is refused BAD_FRAME. -/
def bodyOf (bytes : List Byte) : Option (List Byte) :=
  if bytes.length < 3 ∨ Config.frameLimit < bytes.length + 1 then none
  else
    let stated := beNat ((bytes.drop 1).take 2)
    if Config.frameLimit < stated + 4 ∨ stated + 3 ≠ bytes.length then none else some (bytes.drop 3)

/-- The authority table: whether a port may issue a kind (R173). -/
def ReqKind.allowedAt : ReqKind → Port → Bool
  | .release, p | .hold, p | .holdCancel, p | .quote, p => p == .terminal || p == .uplink
  | .topup, p => p == .terminal
  | .cardStatus, p => p == .terminal || p == .service || p == .uplink
  | .reportFault, p => p == .terminal || p == .service
  | .clearFault, p | .dockRestore, p | .faultStatus, p => p == .service || p == .uplink
  | .fetchCommand, p | .inserted, p | .removed, p | .lockJam, p | .sensorFault, p | .census, p
  | .tokenReport, p => p == .rail
  | .startJob, p | .jobStatus, p | .retireJob, p | .abortJob, p => p == .service || p == .uplink
  | .configure, p | .clockSet, p | .setMode, p | .cardLoad, p | .cardDrop, p | .tariffStage, p
  | .journalRead, p | .journalRelease, p | .factoryClear, p => p == .uplink
  | .dockStatus, _ | .stationStatus, _ | .readNotices, _ | .setNoticeEnables, _ => true

/-- The kinds that pass to their owner while the station is unconfigured (R175). -/
def ReqKind.takenUnconfigured : ReqKind → Bool
  | .configure | .clockSet | .tariffStage | .cardLoad | .factoryClear
  | .dockStatus | .stationStatus | .cardStatus | .faultStatus | .jobStatus
  | .readNotices | .setNoticeEnables => true
  | .release | .hold | .holdCancel | .quote | .topup | .reportFault | .clearFault | .dockRestore
  | .fetchCommand | .inserted | .removed | .lockJam | .sensorFault | .census | .tokenReport
  | .startJob | .retireJob | .abortJob | .setMode | .cardDrop | .journalRead | .journalRelease => false

/-- Stages 1 and 3 to 6 of a request frame whose kind is known (R167): the request its owner is handed, or the
reason of the first stage that fails. -/
def intake {α : Type} (kind : ReqKind) (port : Port) (bytes : List Byte)
    (read : List Byte → Except RefusalReason α) (configured : Bool) : Except RefusalReason α :=
  match bodyOf bytes with
  | none => .error .badFrame
  | some body =>
    if kind.allowedAt port then
      match read body with
      | .error reason => .error reason
      | .ok req => if configured || kind.takenUnconfigured then .ok req else .error .unconfigured
    else .error .notPermitted

end Sys2Proof.Machine
end

