-- ==== Sys2Proof/Machine/Wire.lean ====
section
/-! DEFINITION. What the part sends: the bytes of numbers, named values, the ride token, journal records, answer
bodies and answer frames (R185, R186, R187). -/

namespace Sys2Proof.Machine

/-! ## Numbers, optional fields and lists (R185) -/

/-- An unsigned number in a given width, most significant byte first. -/
def natBytes : Nat → Nat → List Byte
  | 0, _ => []
  | width + 1, n => natBytes width (n / 256) ++ [BitVec.ofNat 8 n]

/-- A signed field: four bytes of two's complement. -/
def intBytes (n : Int) : List Byte := natBytes 4 (n % 4294967296).toNat

/-- An optional field: its presence byte, and its bytes where it is present. -/
def optBytes {α : Type} (f : α → List Byte) : Option α → List Byte
  | none => [0]
  | some x => 1 :: f x

/-- A list: its count byte, and its items in order. -/
def listBytes {α : Type} (f : α → List Byte) (l : List α) : List Byte := natBytes 1 l.length ++ l.flatMap f

/-- A flag in a bit of a flag byte. -/
def flagBit (bit : Nat) (b : Bool) : Nat := if b then 2 ^ bit else 0

/-- The byte of a count that may pass 255, of which the manual says nothing (log 3). -/
def countByte (n : Nat) : Byte := if n < 256 then BitVec.ofNat 8 n else Config.wideCount n

def cardBytes (n : Nat) : List Byte := natBytes 5 n

def bikeBytes (n : Nat) : List Byte := natBytes 3 n

/-- A bike field that may hold EMPTY, which is carried as 0. -/
def bikeOrEmpty (b : Option Nat) : List Byte := natBytes 3 (b.getD 0)

def dockNumber (d : DockNo) : Nat := d.val + 1

def dockBytes (d : DockNo) : List Byte := natBytes 1 (dockNumber d)

/-! ## Codes of named values (R185) -/

def portCode : Port → Byte
  | .terminal => 1
  | .rail => 2
  | .service => 3
  | .uplink => 4

def DockState.wire : DockState → Byte
  | .absent => 0
  | .empty => 1
  | .docked _ => 2
  | .held _ _ => 3
  | .unlocking _ _ => 4
  | .vanHeld _ _ => 5
  | .vanReserved _ => 6
  | .outOfService _ _ => 7

def DockFaultKind.wire : DockFaultKind → Byte
  | .lockJam => 1
  | .sensor => 2
  | .tagReader => 3

def Category.wire (c : Category) : Byte := BitVec.ofNat 8 c.code

def CardState.wire : CardState → Byte
  | .active => 1
  | .debt => 2
  | .barred => 3
  | .lost => 4

def CardKind.wire : CardKind → Byte
  | .payg => 1
  | .pass _ => 2

/-- The pass expiry day of a kind: present exactly with PASS (R65). -/
def CardKind.expiry? : CardKind → Option Int
  | .payg => none
  | .pass day => some day

def JobKind.wire : JobKind → Byte
  | .collect => 1
  | .sweep => 2
  | .deliver => 3
  | .audit => 4

def Direction.wire : Direction → Byte
  | .up => 1
  | .down => 2

def Walk.wire : Walk → Byte
  | .wrap => 1
  | .cross => 2

def FaultHandling.wire : FaultHandling → Byte
  | .skip => 1
  | .stop => 2

def StationMode.wire : StationMode → Byte
  | .open => 1
  | .closed => 2

def LinkState.wire : LinkState → Byte
  | .online => 1
  | .offline => 2

def JournalMode.wire : JournalMode → Byte
  | .normal => 1
  | .tight => 2
  | .reserve => 3

def ReturnAnswer.wire : ReturnAnswer → Byte
  | .plain => 1
  | .settled => 2
  | .keepToken => 3

def LapseReason.wire : LapseReason → Byte
  | .expired => 1
  | .notFetched => 2
  | .quarantined => 3
  | .jammed => 4

def LossCause.wire : LossCause → Byte
  | .quarantined => 1
  | .dockFault => 2
  | .forcedRemoval => 3
  | .missing => 4

def JobState.wire : JobState → Byte
  | .open => 1
  | .filling => 2
  | .ended => 3

def ItemOutcome.wire : ItemOutcome → Byte
  | .open => 1
  | .moved => 2
  | .faulted => 3
  | .returned => 4

/-- The code of a refusal reason, 1 to 29 in the order of the opening file's table. -/
def RefusalReason.wire : RefusalReason → Byte
  | .badFrame => 1
  | .unknownRequest => 2
  | .notPermitted => 3
  | .outOfRange => 4
  | .unconfigured => 5
  | .clockUnset => 6
  | .noTariff => 7
  | .stationClosed => 8
  | .stationBusy => 9
  | .journalTight => 10
  | .journalReserve => 11
  | .unknownCard => 12
  | .cardBlocked => 13
  | .cardBusy => 14
  | .cardHolding => 15
  | .noBike => 16
  | .dockState => 17
  | .dockUnverified => 18
  | .bikeQuarantined => 19
  | .holdLimit => 20
  | .tableFull => 21
  | .railBusy => 22
  | .staleLoad => 23
  | .futureLoad => 24
  | .segmentBusy => 25
  | .jobIllegal => 26
  | .jobUnknown => 27
  | .jobOpen => 28
  | .notFound => 29

/-- A set of end conditions in one byte: SHORT in bit 0, RESET in bit 7. -/
def EndConditions.wire (c : EndConditions) : Byte :=
  BitVec.ofNat 8 (flagBit 0 c.short + flagBit 1 c.walkLimit + flagBit 2 c.late + flagBit 3 c.stoppedAtFault
    + flagBit 4 c.mismatch + flagBit 5 c.dockFault + flagBit 6 c.aborted + flagBit 7 c.reset)

/-- A set of RIDE_END flags in one byte: DEFERRED in bit 0, TARIFF_SUBSTITUTED in bit 5. -/
def FareFlags.wire (f : FareFlags) : Byte :=
  BitVec.ofNat 8 (flagBit 0 f.deferred + flagBit 1 f.clockSuspect + flagBit 2 f.durationClamped
    + flagBit 3 f.saturated + flagBit 4 f.balanceLimit + flagBit 5 f.tariffSubstituted)

/-- A notice set or a category set in two bytes: member k in bit k − 1, counted from the least significant bit of
the second byte. -/
def setBytes (s : BitVec 16) : List Byte := natBytes 2 s.toNat

/-! ## The ride token (R187) -/

/-- The 14 bytes of a ride token. -/
def Token.bytes (t : Token) : List Byte :=
  natBytes 2 t.origin ++ natBytes 2 t.ride ++ cardBytes t.card ++ natBytes 4 t.release
    ++ [BitVec.ofNat 8 (t.tariff.val + flagBit 7 t.provisional)]

/-! ## Journal records (R131, R132, R186) -/

/-- The code of a record kind. -/
def RecordBody.kind : RecordBody → Byte
  | .release .. => 1
  | .rideEnd _ => 2
  | .topup .. => 3
  | .fault .. => 4
  | .faultClear .. => 5
  | .jobEnd _ => 6
  | .clockSet .. => 7

/-- A moved-bike item: a bike field and a flag byte whose bit 0 is the unsettled flag. -/
def MovedBike.bytes (m : MovedBike) : List Byte := bikeOrEmpty m.bike ++ natBytes 1 (flagBit 0 m.unsettled)

def RideEnd.bytes (f : RideEnd) : List Byte :=
  cardBytes f.card ++ bikeBytes f.bike ++ dockBytes f.dock ++ natBytes 2 f.origin ++ natBytes 2 f.ride
    ++ natBytes 4 f.release ++ natBytes 4 f.duration ++ natBytes 1 f.tariff.val ++ natBytes 2 f.baseBlocks
    ++ natBytes 2 f.overstayBlocks ++ natBytes 4 f.gross ++ natBytes 4 f.discounted ++ natBytes 4 f.capped
    ++ natBytes 4 f.surchargeCharged ++ natBytes 4 f.baseCharged ++ natBytes 4 f.charge ++ intBytes f.delta
    ++ intBytes f.balanceAfter ++ intBytes f.unrecovered ++ intBytes f.returnDay ++ [f.flags.wire]

def JobEnd.bytes (f : JobEnd) : List Byte :=
  natBytes 1 f.number ++ [f.kind.wire, portCode f.origin.port, f.conditions.wire] ++ natBytes 1 f.requested
    ++ natBytes 1 f.moved.length ++ dockBytes f.position ++ optBytes dockBytes f.mismatch
    ++ listBytes MovedBike.bytes f.moved

/-- The fields of a record after its prefix; a single flag stands in bit 0 of its byte (log 15). -/
def RecordBody.bytes : RecordBody → List Byte
  | .release card dock bike ride origin provisional =>
    cardBytes card ++ dockBytes dock ++ bikeBytes bike ++ natBytes 2 ride ++ [portCode origin.port]
      ++ natBytes 1 (flagBit 0 provisional)
  | .rideEnd f => f.bytes
  | .topup card amount balance state =>
    cardBytes card ++ intBytes amount ++ intBytes balance ++ [state.wire]
  | .fault bike dock category source card score quarantined =>
    bikeBytes bike ++ optBytes dockBytes dock ++ [category.wire, portCode source] ++ optBytes cardBytes card
      ++ natBytes 1 score ++ natBytes 1 (flagBit 0 quarantined)
  | .faultClear bike port => bikeBytes bike ++ [portCode port]
  | .jobEnd f => f.bytes
  | .clockSet old new => optBytes (natBytes 4) old ++ natBytes 4 new

/-- A record whole: its 11-byte prefix (kind, length including the prefix, size in slots, sequence number, time) and
its fields. -/
def Record.bytes (r : Record) : List Byte :=
  [r.body.kind] ++ natBytes 1 (11 + r.body.bytes.length) ++ natBytes 1 r.slots ++ natBytes 4 r.seq
    ++ natBytes 4 r.time ++ r.body.bytes

/-! ## The bodies of the answers (R186) -/

/-- A ride outcome entry. -/
def RideOutcome.bytes (o : RideOutcome) : List Byte :=
  let ride : Option Nat :=
    match o.kind with
    | .rideStarted n => some n
    | .releaseLapsed n _ => some n
    | .holdExpired => none
    | .holdLost _ => none
  let reason : Option LapseReason :=
    match o.kind with
    | .releaseLapsed _ r => some r
    | .rideStarted _ | .holdExpired | .holdLost _ => none
  let cause : Option LossCause :=
    match o.kind with
    | .holdLost c => some c
    | .rideStarted _ | .releaseLapsed _ _ | .holdExpired => none
  natBytes 1 o.kind.notice.code ++ cardBytes o.card ++ dockBytes o.dock ++ optBytes (natBytes 2) ride
    ++ optBytes (fun r => [LapseReason.wire r]) reason ++ optBytes (fun c => [LossCause.wire c]) cause
    ++ natBytes 4 o.clock

def QuoteView.bytes (v : QuoteView) : List Byte :=
  natBytes 2 v.baseBlocks ++ natBytes 2 v.overstayBlocks ++ natBytes 4 v.gross ++ natBytes 4 v.discounted
    ++ natBytes 4 v.capped ++ natBytes 4 v.surchargeCharged ++ natBytes 4 v.baseCharged ++ natBytes 4 v.charge
    ++ natBytes 1 v.tariffUsed.val ++ natBytes 1 v.freeMinutes ++ natBytes 1 (flagBit 0 v.passApplied)
    ++ [v.flags.wire]

/-- The card view of CARD_STATUS; the discount takes 1 byte (log 34). -/
def CardView.bytes (v : CardView) : List Byte :=
  let e := v.entry
  [e.state.wire, e.kind.wire] ++ optBytes intBytes e.kind.expiry?
    ++ optBytes (fun b => natBytes 1 (flagBit 0 b)) v.passValid ++ natBytes 1 e.tariff.val
    ++ natBytes 1 e.discount ++ intBytes e.balance ++ natBytes 4 e.charged ++ intBytes e.day
    ++ optBytes (natBytes 4) v.chargedToday ++ natBytes 1 (flagBit 0 e.provisional) ++ natBytes 2 e.refCount
    ++ optBytes dockBytes e.inFlight ++ optBytes dockBytes e.holdDock ++ natBytes 4 e.lastUse

def CardTotals.bytes (t : CardTotals) : List Byte :=
  natBytes 2 t.entries ++ natBytes 1 t.provisional ++ natBytes 2 t.pinned ++ natBytes 2 t.active
    ++ natBytes 2 t.debt ++ natBytes 2 t.barred ++ natBytes 2 t.lost

def ReportEntry.bytes (r : ReportEntry) : List Byte :=
  [portCode r.source] ++ optBytes cardBytes r.card ++ [r.category.wire] ++ natBytes 4 r.time

def Command.bytes (left : Nat) : Option Command → List Byte
  | none => [0] ++ natBytes 1 left
  | some (.unlock d t) => [1] ++ natBytes 1 left ++ dockBytes d ++ t.bytes
  | some (.batchUnlock j ds) => [2] ++ natBytes 1 left ++ natBytes 1 j ++ listBytes dockBytes ds
  | some (.relock ds) => [3] ++ natBytes 1 left ++ listBytes dockBytes ds
  | some (.readToken d) => [4] ++ natBytes 1 left ++ dockBytes d

def JobRecord.bytes (j : JobRecord) : List Byte :=
  natBytes 1 j.number ++ [portCode j.origin.port, j.kind.wire] ++ dockBytes j.start
    ++ [j.direction.wire, j.walk.wire] ++ optBytes (fun h => [FaultHandling.wire h]) j.faultHandling
    ++ natBytes 1 j.requested ++ listBytes (fun i => dockBytes i.dock ++ [i.outcome.wire]) j.marked
    ++ natBytes 1 j.moved.length ++ listBytes MovedBike.bytes j.moved
    ++ optBytes (listBytes bikeOrEmpty) j.expected ++ dockBytes j.position ++ optBytes dockBytes j.mismatch
    ++ natBytes 1 j.claimed.toNat ++ optBytes (fun b => natBytes 1 (flagBit 0 b)) j.batchFetched
    ++ [j.state.wire, j.conditions.wire] ++ optBytes (natBytes 2) j.window

def JobLine.bytes (l : JobLine) : List Byte :=
  natBytes 1 l.number ++ [l.kind.wire, portCode l.origin.port, l.state.wire, l.conditions.wire]
    ++ natBytes 1 l.requested ++ natBytes 1 l.moved ++ optBytes (natBytes 2) l.window

/-- The configuration items after the station number and the segment sizes, in the order and widths of
CONFIGURE; the quarantine threshold takes 1 byte (log 34). -/
def StationConfig.itemBytes (c : StationConfig) : List Byte :=
  natBytes 1 c.unlockWindow ++ natBytes 2 c.holdDuration ++ natBytes 2 c.vanWindow ++ natBytes 2 c.stalePeriod
    ++ natBytes 1 c.threshold ++ natBytes 1 (flagBit 0 c.provisionalReleases) ++ intBytes c.dayOffset

/-- The nine items of a CONFIGURE answer, each without its presence byte, and N. -/
def StationConfig.bytes (c : StationConfig) : List Byte :=
  natBytes 2 (c.station.getD 0) ++ listBytes (natBytes 1) c.segments ++ c.itemBytes
    ++ natBytes 1 c.dockCount

def LoadView.bytes (v : LoadView) : List Byte :=
  [if v.created then 1 else 2] ++ optBytes cardBytes v.evicted ++ intBytes v.balance ++ natBytes 4 v.charged
    ++ intBytes v.day ++ [v.state.wire, countByte v.replayed] ++ natBytes 2 v.refCount

/-- The whole entry of a dock. -/
def Dock.bytes (x : Dock) : List Byte :=
  let hold : Option HoldRecord :=
    match x.state with
    | .held _ h => some h
    | .absent | .empty | .docked _ | .unlocking _ _ | .vanHeld _ _ | .vanReserved _ | .outOfService _ _ => none
  let release : Option ReleaseRecord :=
    match x.state with
    | .unlocking _ r => some r
    | .absent | .empty | .docked _ | .held _ _ | .vanHeld _ _ | .vanReserved _ | .outOfService _ _ => none
  let job : Option Nat :=
    match x.state with
    | .vanHeld _ j => some j
    | .vanReserved j => some j
    | .absent | .empty | .docked _ | .held _ _ | .unlocking _ _ | .outOfService _ _ => none
  let fault : Option DockFaultKind :=
    match x.state with
    | .outOfService _ k => some k
    | .absent | .empty | .docked _ | .held _ _ | .unlocking _ _ | .vanHeld _ _ | .vanReserved _ => none
  [x.state.wire] ++ optBytes (fun b => bikeBytes b.bike) x.state.bike?
    ++ optBytes (fun b => natBytes 4 b.since) x.state.bike?
    ++ natBytes 1 (flagBit 0 x.state.tokenHeld + flagBit 1 x.verified)
    ++ optBytes (fun h => cardBytes h.card ++ natBytes 2 h.remaining) hold
    ++ optBytes (fun r => cardBytes r.card ++ natBytes 2 r.ride ++ natBytes 1 r.window
        ++ natBytes 1 (flagBit 0 r.fetched + flagBit 7 r.provisional)) release
    ++ optBytes (natBytes 1) job ++ optBytes (fun k => [DockFaultKind.wire k]) fault

/-- An item of the DOCK_STATUS list. -/
def Dock.lineBytes (x : Dock) : List Byte :=
  [x.state.wire]
    ++ natBytes 1 (flagBit 0 x.state.tokenHeld + flagBit 1 x.verified + flagBit 2 x.state.bike?.isSome)
    ++ bikeOrEmpty (x.state.bike?.map (fun b => b.bike))
    ++ (match x.state with
        | .vanHeld _ j => natBytes 1 j
        | .vanReserved j => natBytes 1 j
        | .outOfService _ k => [k.wire]
        | .absent | .empty | .docked _ | .held _ _ | .unlocking _ _ => [0])

def StationView.bytes (v : StationView) : List Byte :=
  natBytes 1 (flagBit 0 v.config.configured + flagBit 1 v.clockValid) ++ [v.stationMode.wire, v.link.wire]
    ++ natBytes 2 v.staleTimer ++ natBytes 4 v.clock ++ optBytes intBytes v.today
    ++ optBytes (natBytes 2) v.config.station ++ listBytes (natBytes 1) v.config.segments ++ v.config.itemBytes
    ++ natBytes 1 v.config.dockCount ++ [v.mode.wire] ++ natBytes 2 v.freeSlots ++ natBytes 2 v.heldRecords
    ++ natBytes 2 v.heldSlots ++ natBytes 2 v.reservedSlots ++ natBytes 4 v.lastSeq ++ natBytes 4 v.marker
    ++ natBytes 1 v.docks.empty ++ natBytes 1 v.docks.docked ++ natBytes 1 v.docks.held
    ++ natBytes 1 v.docks.unlocking ++ natBytes 1 v.docks.vanHeld ++ natBytes 1 v.docks.vanReserved
    ++ natBytes 1 v.docks.outOfService ++ natBytes 1 v.tokenHeld ++ natBytes 1 v.unverified
    ++ natBytes 1 v.holdCount ++ natBytes 1 v.queueLength ++ natBytes 1 v.fetchedOpen
    ++ natBytes 1 (flagBit 0 v.readQueued + flagBit 1 v.readAwaited) ++ natBytes 1 v.openJobs
    ++ natBytes 1 v.endedJobs ++ natBytes 1 v.freeJobSlots ++ natBytes 2 v.cards ++ natBytes 1 v.provisional
    ++ natBytes 2 v.pinned ++ natBytes 1 v.faults ++ natBytes 1 v.quarantined ++ natBytes 1 v.defined.toNat
    ++ optBytes (fun p => natBytes 4 p.1 ++ natBytes 1 p.2) v.staged

/-- What stands before the records of a JOURNAL_READ answer. -/
def journalHead (records : List Record) (lastSeq marker heldRecords : Nat) (more : Bool) : List Byte :=
  natBytes 1 records.length
    ++ (match records.head?, records.getLast? with
        | some a, some b => [1] ++ natBytes 4 a.seq ++ natBytes 4 b.seq
        | none, _ => [0]
        | some _, none => [0])
    ++ natBytes 4 lastSeq ++ natBytes 4 marker ++ natBytes 2 heldRecords ++ natBytes 1 (flagBit 0 more)

/-- The body of an ACCEPT; one presence byte stands for the pair of origin station and ride number of a return's answer
(log 33), and a score and a threshold take 1 byte (log 34). -/
def AcceptBody.bytes : AcceptBody → List Byte
  | .released d ride evicted => dockBytes d ++ natBytes 2 ride ++ optBytes cardBytes evicted
  | .held d remaining => dockBytes d ++ natBytes 2 remaining
  | .cancelled d => dockBytes d
  | .quoted v => v.bytes
  | .toppedUp balance state => intBytes balance ++ [state.wire]
  | .card v => v.bytes
  | .cardTotals t => t.bytes
  | .faultReported bike counted quarantined created score replaced =>
    bikeBytes bike ++ natBytes 1 (flagBit 0 counted + flagBit 1 quarantined + flagBit 2 created)
      ++ natBytes 1 score ++ optBytes bikeBytes replaced
  | .faultCleared score categories quarantined =>
    natBytes 1 score ++ setBytes categories ++ natBytes 1 (flagBit 0 quarantined)
  | .faultEntry e =>
    natBytes 1 e.score ++ setBytes e.categories ++ listBytes ReportEntry.bytes e.reports
      ++ natBytes 1 (flagBit 0 e.quarantined) ++ natBytes 4 e.firstReport
  | .faultList entries quarantined threshold items more =>
    natBytes 1 entries ++ natBytes 1 quarantined ++ natBytes 1 threshold
      ++ listBytes (fun l => bikeBytes l.bike ++ natBytes 1 l.score ++ natBytes 1 (flagBit 0 l.quarantined)) items
      ++ natBytes 1 (flagBit 0 more)
  | .fetched command left => Command.bytes left command
  | .returned answer d pair charge =>
    [answer.wire] ++ dockBytes d ++ optBytes (fun p => natBytes 2 p.1 ++ natBytes 2 p.2) pair
      ++ optBytes (natBytes 4) charge
  | .removed bike => bikeBytes bike
  | .census verified missing => natBytes 1 verified ++ natBytes 1 missing
  | .jobStarted number state marked position conditions mismatch =>
    natBytes 1 number ++ [state.wire] ++ listBytes dockBytes marked ++ dockBytes position ++ [conditions.wire]
      ++ optBytes dockBytes mismatch
  | .job r => r.bytes
  | .jobLines free lines => natBytes 1 free ++ listBytes JobLine.bytes lines
  | .aborted conditions moved back => [conditions.wire] ++ natBytes 1 moved ++ natBytes 1 back
  | .configured c => c.bytes
  | .clockSet old new => optBytes (natBytes 4) old ++ natBytes 4 new
  | .modeSet before after => [before.wire, after.wire]
  | .cardLoaded v => v.bytes
  | .staged effective entries replaced =>
    natBytes 4 effective ++ natBytes 1 entries ++ optBytes (natBytes 4) replaced
  | .journal records lastSeq marker heldRecords more =>
    journalHead records lastSeq marker heldRecords more ++ records.flatMap Record.bytes
  | .journalReleased freed slots marker free mode =>
    natBytes 2 freed ++ natBytes 2 slots ++ natBytes 4 marker ++ natBytes 2 free ++ [mode.wire]
  | .cleared clock valid => natBytes 4 clock ++ natBytes 1 (flagBit 0 valid)
  | .dock x => x.bytes
  | .dockList xs => listBytes Dock.lineBytes xs
  | .station v => v.bytes
  | .notices reported gone enabled outcomes =>
    setBytes reported ++ setBytes gone ++ setBytes enabled
      ++ (match outcomes with
          | some l => listBytes RideOutcome.bytes l
          | none => [])
  | .enables enabled pendingSet => setBytes enabled ++ setBytes pendingSet
  | .nothing => []

/-! ## Answer frames (R168, R169, R186) -/

/-- The flag byte of a CARD_BUSY refusal of a CARD_DROP. -/
def PinView.bytes (p : PinView) : List Byte :=
  natBytes 1 (flagBit 0 p.refCount + flagBit 1 p.inFlight + flagBit 2 p.holdDock)

def Reply.body : Reply → List Byte
  | .accept b => b.bytes
  | .refuse _ none => []
  | .refuse _ (some p) => p.bytes

/-- The outcome byte and the reason byte. -/
def Reply.head : Reply → List Byte
  | .accept _ => [1, 0]
  | .refuse reason _ => [2, reason.wire]

/-- An answer frame: its 6-byte header and its body. -/
def AnswerFrame.bytes (f : AnswerFrame) : List Byte :=
  [f.kind, f.tag] ++ f.reply.head ++ natBytes 2 f.reply.body.length ++ f.reply.body

/-- The IDLE frame. -/
def idleFrame : List Byte := [0xEE, 0, 3, 0, 0, 0]

/-- The byte that stands beyond the end of a frame and through a request transfer. -/
def fillByte : Byte := 0xFF

/-- The bytes an answer transfer sends: a frame from its first byte, one byte for each byte clocked, and the fill
value beyond its end (R169). -/
def sentBytes (frame : List Byte) (clocked : Nat) : List Byte :=
  frame.take clocked ++ List.replicate (clocked - frame.length) fillByte

end Sys2Proof.Machine
end

