-- ==== Sys2Proof/WellFormed.lean ====
section
/-! DEFINITION. Which commands are well formed: the checks on operands that no rule of the part makes,
because what they shut out is not a command of the row. Every other operand, malformed frames included, is
the part's own to judge (R171 to R175). -/

namespace Sys2Proof

/-- The answer-read code: a first byte that makes an answer transfer, not a request (R166, R186). -/
def answerReadCode : Byte := 0xA5

/-- A first byte that one of the 34 request kinds uses (R185, R186: coded 1 to 34). -/
def isRequestCode (k : Byte) : Bool := decide (1 ≤ k.toNat) && decide (k.toNat ≤ 34)

/-- Well-formed commands. An UNKNOWN_REQUEST's first byte is none of the 34 kinds and is not the answer-read
code (R172); no holder takes one tick twice (R150); no port is listed twice. -/
def Instr.wf : Instr → Bool
  | .unknownRequest _ k _ => !isRequestCode k && k != answerReadCode
  | .tick takers => decide takers.Nodup
  | .resetHold _ underWay => decide underWay.Nodup
  | .release .. | .hold .. | .holdCancel .. | .quote .. | .topup .. | .cardStatus .. | .reportFault ..
  | .clearFault .. | .dockRestore .. | .faultStatus .. | .fetchCommand .. | .inserted .. | .removed ..
  | .lockJam .. | .sensorFault .. | .census .. | .tokenReport .. | .startJob .. | .jobStatus ..
  | .retireJob .. | .abortJob .. | .configure .. | .clockSet .. | .setMode .. | .cardLoad .. | .cardDrop ..
  | .tariffStage .. | .journalRead .. | .journalRelease .. | .factoryClear .. | .dockStatus ..
  | .stationStatus .. | .readNotices .. | .setNoticeEnables .. | .answerRead .. | .holdExpiry ..
  | .unlockWindowExpiry .. | .vanWindowExpiry .. | .staleTimerExpiry | .tariffSwitch | .resettlementSweep
  | .retentionLoss | .warmReset | .coldReset | .selectDuringHold .. | .spoiledTransferEnd .. => true

end Sys2Proof
end

