-- ==== Sys2Proof/Machine/Ports.lean ====
section
/-! DEFINITION. The port units: how a transfer is taken (R166 to R170), how a request is served and answered, and
the commands that reach no owner beyond the port unit. -/

namespace Sys2Proof.Machine

/-- What an owner makes of a request: the station after its work, the answer's outcome with its body, and whether
the mode is reckoned and the sweep acts at the end of the event. They do for every accepted request, one that only
reads included (R45, R136); a refused request changes no record (R176; log 5). -/
structure Handled where
  station : State
  reply : Reply
  acts : Bool

/-- A refused request changes no record of the station (R176). -/
def refuse (reason : RefusalReason) (s : State) : Handled :=
  { station := s, reply := .refuse reason none, acts := false }

/-- An accepted request with its work done; a request that only reads leaves the station as it found it. -/
def accept (body : AcceptBody) (s : State) : Handled :=
  { station := s, reply := .accept body, acts := true }

/-- The request of a judgement, or the refusal it gave. -/
def orRefuse {α : Type} (judged : Except RefusalReason α) (s : State) (work : α → Handled) : Handled :=
  match judged with
  | .ok x => work x
  | .error reason => refuse reason s

/-! ## The transfer -/

/-- The port takes no transfer: the part is held, or the transfer is SPOILED (R166, R177). -/
def State.deaf (s : State) (p : Port) : Bool := s.held || decide ((s.port p).transfer = .spoiled)

/-- The select release of a transfer that is not taken: the transfer state is QUIET and nothing else changes (R166,
R177). -/
def State.endTransfer (p : Port) (s : State) : State := s.setPort p { s.port p with transfer := .quiet }

/-- The select release of a request transfer: the transfer state is QUIET, and data out has carried the fill value for
every byte of the frame (R186). -/
def State.endRequest (p : Port) (frame : Nat) (s : State) : State :=
  s.setPort p { s.port p with transfer := .quiet, dataOut := List.replicate frame fillByte }

/-- The answer is placed in the answer slot (R168). -/
def State.placeAnswer (p : Port) (f : AnswerFrame) (s : State) : State :=
  s.setPort p { s.port p with slot := some f }

/-- The stale timer restarts at the configured period, and an OFFLINE link comes ONLINE with LINK_CHANGED at the
terminal and service ports (R153). -/
def State.restartStale (s : State) : State :=
  let s' := { s with time := { s.time with staleTimer := s.time.config.stalePeriod, link := .online } }
  match s.time.link with
  | .online => s'
  | .offline => (s'.notify .terminal .linkChanged).notify .service .linkChanged

/-- An accepted uplink request other than FACTORY_CLEAR restarts the stale timer once its owner's work is done
(R153, R168). -/
def State.afterAnswer (p : Port) (restarts : Bool) (reply : Reply) (s : State) : State :=
  match reply with
  | .accept _ => if p = .uplink ∧ restarts then s.restartStale else s
  | .refuse _ _ => s

/-- The end of a request's event: the timer restarts where the answer calls for it (R153), the answer is placed in the
slot (R168), and the event that began in `s` closes. -/
def finishFrame (p : Port) (first : Byte) (bytes : List Byte) (restarts : Bool) (h : Handled) (s : State) : State :=
  let done := (h.station.afterAnswer p restarts h.reply).placeAnswer p
    { kind := first, tag := tagOf bytes, reply := h.reply }
  if h.acts then done.closeEvent s else done.closeQuiet s

/-- The select release of a request transfer, in one event: at a deaf port nothing is taken; while the slot is HOLDING
the frame is discarded and OVERRUN is set (R170); otherwise the frame is judged, and its answer is placed in the slot
at the end of the event (R168). -/
def takeFrame (p : Port) (first : Byte) (bytes : List Byte) (restarts : Bool) (judge : State → Handled)
    (s : State) : State :=
  if s.deaf p then s.endTransfer p
  else
    let s0 := s.endRequest p (bytes.length + 1)
    if (s.port p).slot.isSome then (s0.notify p .overrun).closeQuiet s
    else finishFrame p first bytes restarts (judge s0) s

/-- A request frame of a known kind: stages 1 and 3 to 6, then its owner (R167). -/
def serve {α : Type} (kind : ReqKind) (p : Port) (bytes : List Byte)
    (read : List Byte → Except RefusalReason α) (owner : α → State → Handled) (s : State) : State :=
  takeFrame p kind.code bytes (kind != .factoryClear)
    (fun s0 => orRefuse (intake kind p bytes read s0.time.config.configured) s0 (fun req => owner req s0)) s

/-! ## Requests that the port units own -/

/-- The ride outcome list of a port; the rail and service ports have none (R24). -/
def Rides.outcomes? (r : Rides) : Port → Option (List RideOutcome)
  | .terminal => some r.terminalOutcomes
  | .uplink => some r.uplinkOutcomes
  | .rail | .service => none

/-- The entries of cleared kinds leave a port's ride outcome list (R181). -/
def Rides.clearOutcomes (p : Port) (gone : NoticeSet) (r : Rides) : Rides :=
  let keep := fun (o : RideOutcome) => !gone.has o.kind.notice
  match p with
  | .terminal => { r with terminalOutcomes := r.terminalOutcomes.filter keep }
  | .uplink => { r with uplinkOutcomes := r.uplinkOutcomes.filter keep }
  | .rail | .service => r

/-- READ_NOTICES (R181): the answer reports the pending set; the kinds both listed and reported are cleared, and with
them their entries on the ride outcome list. The sweep may act at the event's end whatever the list clears (log 5). -/
def ownReadNotices (p : Port) (clear : List Notice) (s : State) : Handled :=
  let u := s.port p
  let gone := u.pendingSet &&& noticeSetOf clear
  accept (.notices u.pendingSet gone u.enableSet (s.rides.outcomes? p))
    ({ s with rides := s.rides.clearOutcomes p gone }.setPort p { u with pendingSet := u.pendingSet &&& ~~~gone })

/-- SET_NOTICE_ENABLES (R183); the sweep may act at the event's end, both lists empty included (log 5). The pending set of
the answer is the one the request finds: a COMMAND_WAITING that this sweep sets at the rail port is not in it (DESIGN CHOICE,
log 36). -/
def ownSetNoticeEnables (p : Port) (req : EnablesReq) (s : State) : Handled :=
  let u := s.port p
  let enabled := (u.enableSet ||| noticeSetOf req.enable) &&& ~~~(noticeSetOf req.disable)
  accept (.enables enabled u.pendingSet) (s.setPort p { u with enableSet := enabled })

/-- READ_NOTICES. -/
def execReadNotices (port : Port) (bytes : List Byte) (s : State) : Host.Outcome State Fault Refusal :=
  .next (serve .readNotices port bytes readClear (ownReadNotices port) s)

/-- SET_NOTICE_ENABLES. -/
def execSetNoticeEnables (port : Port) (bytes : List Byte) (s : State) : Host.Outcome State Fault Refusal :=
  .next (serve .setNoticeEnables port bytes readEnables (ownSetNoticeEnables port) s)

/-- UNKNOWN_REQUEST (R172): a frame that passes stage 1 and whose kind is none of the 34 is refused UNKNOWN_REQUEST.
A first byte that is another row's makes no command of this row (log 22). -/
def execUnknownRequest (port : Port) (kind : Byte) (bytes : List Byte) (s : State) :
    Host.Outcome State Fault Refusal :=
  if (Instr.unknownRequest port kind bytes).wf then
    .next (takeFrame port kind bytes true
      (fun s0 => refuse (match bodyOf bytes with
        | none => .badFrame
        | some _ => .unknownRequest) s0) s)
  else .refused .notThisRow

/-- ANSWER_READ (R169): the slot's frame, or IDLE, is sent from its first byte; the slot becomes EMPTY where at least
the whole frame was clocked. The slot is read as the transfer's release finds it: where a FACTORY_CLEAR emptied it
while its answer was being sent (R178), the model's data out has an IDLE frame (DESIGN CHOICE, log 16). What is sent while
the answer-read code byte itself is clocked no rule gives, and data out has no byte for it (DESIGN CHOICE, log 16). -/
def execAnswerRead (port : Port) (clocked : Nat) (s : State) : Host.Outcome State Fault Refusal :=
  let u := s.port port
  if s.deaf port then .next (s.endTransfer port)
  else
    match u.slot with
    | none => .next (s.setPort port { u with transfer := .quiet, dataOut := sentBytes idleFrame clocked })
    | some f =>
      .next (s.setPort port
        { u with transfer := .quiet, dataOut := sentBytes f.bytes clocked,
                 slot := if f.bytes.length ≤ clocked then none else some f })

/-- A port's transfer is SPOILED (R177). -/
def State.spoil (s : State) (p : Port) : State := s.setPort p { s.port p with transfer := .spoiled }

/-- SELECT_DURING_HOLD (R177): a transfer whose select is asserted during the hold is SPOILED; out of the hold there
is no such event and nothing happens (log 8). -/
def execSelectDuringHold (port : Port) (s : State) : Host.Outcome State Fault Refusal :=
  if s.held then .next (s.spoil port) else .next s

/-- SPOILED_TRANSFER_END (R166): the select release of a SPOILED transfer makes the port QUIET; a port in another
transfer state has no such event (log 8). -/
def execSpoiledTransferEnd (port : Port) (s : State) : Host.Outcome State Fault Refusal :=
  if (s.port port).transfer = .spoiled then .next (s.endTransfer port) else .next s

end Sys2Proof.Machine
end

