-- ==== Sys2Proof/Machine/Fare.lean ====
section
/-! DEFINITION. The fare unit: the ten steps of the fare computation (R53 to R63), the quote (R64), staging and the
switch (R50, R51). -/

namespace Sys2Proof.Machine

/-! ## Steps 1 to 9 -/

/-- The card fields that steps 2 to 9 read (R53). -/
structure FareBasis where
  kind : CardKind
  discount : Nat
  charged : Nat
  day : Int
  deriving DecidableEq, Repr

/-- The duration of step 1 with the flags it raises (R54). -/
structure Duration where
  seconds : Nat
  suspect : Bool
  clamped : Bool
  deriving DecidableEq, Repr

/-- The figures that steps 2 to 9 yield. -/
structure FareFigures where
  passApplied : Bool
  freeMinutes : Nat
  baseBlocks : Nat
  overstayBlocks : Nat
  gross : Nat
  discounted : Nat
  capped : Nat
  baseCharged : Nat
  surchargeCharged : Nat
  charge : Nat
  saturated : Bool
  deriving DecidableEq, Repr

/-- Division rounded up. -/
def ceilDiv (a b : Nat) : Nat := (a + (b - 1)) / b

/-- The card entry as a fare reads it (R53). -/
def CardEntry.basis (c : CardEntry) : FareBasis :=
  { kind := c.kind, discount := c.discount, charged := c.charged, day := c.day }

/-- The deferred defaults: kind PAYG, discount 0, charged-today 0 (R42, R63); no stored day is read. -/
def deferredBasis (returnDay : Int) : FareBasis := { kind := .payg, discount := 0, charged := 0, day := returnDay }

/-- Step 1 (R54). -/
def fareDuration (returnTime releaseTime : Nat) : Duration :=
  if returnTime < releaseTime then { seconds := 0, suspect := true, clamped := false }
  else if Config.durationCeiling < returnTime - releaseTime then
    { seconds := Config.durationCeiling, suspect := false, clamped := true }
  else { seconds := returnTime - releaseTime, suspect := false, clamped := false }

/-- Whether a pass covers a day: the kind is PASS and its expiry day is that day or later (R55, R66). -/
def CardKind.covers (k : CardKind) (day : Int) : Bool :=
  match k with
  | .payg => false
  | .pass expiry => decide (day ≤ expiry)

/-- Step 3: the billable seconds (R56). -/
def billable (p : Plan) (free d : Nat) : Nat := d - p.graceSeconds - 60 * free

/-- Step 5: the overstay blocks (R57). -/
def overstay (p : Plan) (d : Nat) : Nat :=
  if p.overstayStart = 0 ∨ d ≤ 60 * p.overstayStart then 0
  else ceilDiv (d - 60 * p.overstayStart) (60 * p.blockMinutes)

/-- The charged-today figure of step 7: the stored one on its own day, 0 on any other (R59). -/
def FareBasis.chargedOn (b : FareBasis) (day : Int) : Nat := if b.day = day then b.charged else 0

/-- Step 7: the discounted base under the day cap; a cap of 0 is no cap (R59). -/
def capBase (p : Plan) (charged discounted : Nat) : Nat :=
  if p.dayCap = 0 then discounted else min discounted (p.dayCap - charged)

/-- Steps 2 to 9 (R55 to R60). -/
def fareFigures (p : Plan) (b : FareBasis) (releaseDay returnDay : Int) (d : Nat) : FareFigures :=
  let pass := b.kind.covers releaseDay
  let free := if pass then p.passFreeMinutes else p.freeMinutes
  let n := ceilDiv (billable p free d) (60 * p.blockMinutes)
  let m := overstay p d
  let gross := n * p.blockPrice
  let discounted := gross * (100 - b.discount) / 100
  let capped := capBase p (b.chargedOn returnDay) discounted
  let surcharge := m * p.overstayPrice
  let baseCharged := min capped Config.chargeCeiling
  let surchargeCharged := min surcharge (Config.chargeCeiling - baseCharged)
  { passApplied := pass
    freeMinutes := free
    baseBlocks := n
    overstayBlocks := m
    gross := gross
    discounted := discounted
    capped := capped
    baseCharged := baseCharged
    surchargeCharged := surchargeCharged
    charge := baseCharged + surchargeCharged
    saturated := decide (Config.chargeCeiling < capped + surcharge) }

/-! ## Step 10 -/

/-- The balance before step 10 floors it (R61). -/
def rawBalance (c : CardEntry) (charge : Nat) : Int := c.balance - (charge : Int)

/-- The new balance, never below the floor (R61). -/
def chargedBalance (c : CardEntry) (charge : Nat) : Int := max Config.balanceFloor (rawBalance c charge)

/-- Charged-today after step 10, with the saturation of R72 (R61, R82). -/
def chargedAfter (c : CardEntry) (baseCharged : Nat) (returnDay : Int) : Nat :=
  if c.day = returnDay then min (c.charged + baseCharged) Config.chargedCeiling
  else if c.day < returnDay then min baseCharged Config.chargedCeiling
  else c.charged

/-- Step 10 on a card entry, with its last-use time (R61, R82). -/
def applyCharge (p : Plan) (f : FareFigures) (returnDay : Int) (now : Nat) (c : CardEntry) : CardEntry :=
  let balance := chargedBalance c f.charge
  { c with
    balance := balance
    charged := chargedAfter c f.baseCharged returnDay
    day := if c.day < returnDay then returnDay else c.day
    state := if balance < -(p.creditFloor : Int) ∧ c.state = .active then .debt else c.state
    lastUse := now }

/-! ## QUOTE (R64) -/

/-- QUOTE: steps 2 to 9 on the entry, or on the deferred defaults for a provisional one; today is both the release day
and the return day. -/
def ownQuote (req : QuoteReq) (s : State) : Handled :=
  if s.time.clockValid then
    match s.fares.plan0 with
    | none => refuse .noTariff s
    | some p0 =>
      match s.card req.card with
      | none => refuse .unknownCard s
      | some c =>
        let index := if c.provisional then 0 else c.tariff
        let basis := if c.provisional then deferredBasis s.today else c.basis
        let resolved := (s.fares.resolve index).getD (p0, true)
        let f := fareFigures resolved.1 basis s.today s.today req.duration
        accept (.quoted
          { baseBlocks := f.baseBlocks
            overstayBlocks := f.overstayBlocks
            gross := f.gross
            discounted := f.discounted
            capped := f.capped
            surchargeCharged := f.surchargeCharged
            baseCharged := f.baseCharged
            charge := f.charge
            tariffUsed := if resolved.2 then 0 else index
            freeMinutes := f.freeMinutes
            passApplied := f.passApplied
            flags := { FareFlags.none with
                       deferred := c.provisional, saturated := f.saturated, tariffSubstituted := resolved.2 } }) s
  else refuse .clockUnset s

/-- QUOTE. -/
def execQuote (port : Port) (bytes : List Byte) (s : State) : Host.Outcome State Fault Refusal :=
  .next (serve .quote port bytes readQuote ownQuote s)

/-! ## TARIFF_STAGE (R50) -/

/-- The owner's checks on a staged list: not empty, no index twice, no EMPTY marker at index 0. -/
def StagedSet.sound (t : StagedSet) : Bool :=
  !t.entries.isEmpty && decide ((t.entries.map (fun e => e.index)).Nodup)
    && t.entries.all (fun e => e.index != 0 || e.plan.isSome)

/-- TARIFF_STAGE: the staged set is replaced whole. A tick that the fare unit was handed and has not taken stays at hand, and
compares the new set (DESIGN CHOICE, log 35). -/
def ownTariffStage (req : StagedSet) (s : State) : Handled :=
  if req.sound then
    accept (.staged req.effective req.entries.length (s.fares.staged.map (fun t => t.effective)))
      { s with fares := { s.fares with staged := some req } }
  else refuse .outOfRange s

/-- TARIFF_STAGE. -/
def execTariffStage (port : Port) (bytes : List Byte) (s : State) : Host.Outcome State Fault Refusal :=
  .next (serve .tariffStage port bytes readStage ownTariffStage s)

/-! ## The switch (R51) -/

/-- Each staged entry replaces the plan at its index; an EMPTY marker makes the index EMPTY. -/
def switchIn (entries : List StagedEntry) (active : Vector (Option Plan) 8) : Vector (Option Plan) 8 :=
  entries.foldl (fun v e => v.set e.index e.plan) active

/-- The staged set that a comparison at this moment would switch in: the clock is valid and at or past its effective
time. -/
def State.dueSet (s : State) : Option StagedSet :=
  match s.fares.staged with
  | some t => if s.time.clockValid ∧ t.effective ≤ s.time.clock then some t else none
  | none => none

/-- The switch, where it is due: the staged entries become active, the staged set empties, and TARIFF_SWITCHED is set
at the terminal and uplink ports. -/
def State.switchTariff (s : State) : State :=
  match s.dueSet with
  | some t =>
    (State.notify .terminal .tariffSwitched
      { s with fares := { active := switchIn t.entries s.fares.active, staged := none } }).notify
        .uplink .tariffSwitched
  | none => s

end Sys2Proof.Machine
end

