-- ==== Sys2Proof/Machine/Rides.lean ====
section
/-! DEFINITION. The ride controller's releases and holds: judging them, accepting them, and the ways they end. -/

namespace Sys2Proof.Machine

/-! ## Entitlement and the choice of a dock -/

/-- On a valid pass: PASS with an expiry day of today or later (R27, R66). -/
def State.onPass (s : State) (c : CardEntry) : Bool := c.kind.covers s.today

/-- Step 6 of R27: a valid pass, a provisional entry, or a balance of at least the start minimum of the plan that the
card's index resolves to. -/
def State.entitled (s : State) (c : CardEntry) : Bool :=
  s.onPass c || c.provisional ||
    match s.fares.resolve c.tariff with
    | some p => decide ((p.1.startMinimum : Int) ≤ c.balance)
    | none => false

/-- Step 7 of R27: what the journal mode makes of a release (R26). -/
def State.journalBars (s : State) (c : CardEntry) : Option RefusalReason :=
  match s.journal.mode with
  | .normal => none
  | .tight => if s.onPass c then none else some .journalTight
  | .reserve => some .journalReserve

/-- A named dock must hold an available bike; its checks in the order of R29. -/
def State.namedDock (s : State) (d : DockNo) : Except RefusalReason DockNo :=
  match (s.dock d).state with
  | .docked b =>
    if !(s.dock d).verified then .error .dockUnverified
    else if s.isQuarantined b.bike then .error .bikeQuarantined
    else if b.tokenHeld then .error .dockState
    else .ok d
  | .absent | .empty | .held _ _ | .unlocking _ _ | .vanHeld _ _ | .vanReserved _ | .outOfService _ _ =>
    .error .dockState

/-- What the choice among available bikes reads of a dock: whether the bike has a fault entry, and the docked-since
time (R29). -/
def State.offer (s : State) (d : DockNo) : Bool × Nat :=
  match (s.dock d).state.bike? with
  | some b => ((s.fault b.bike).isSome, b.since)
  | none => (true, 0)

/-- The order of the choice: bikes with no fault entry first, then the earliest docked-since time, then the lowest dock
number (R29). -/
def State.offeredFirst (s : State) (a b : DockNo) : Bool :=
  let x := s.offer a
  let y := s.offer b
  (!x.1 && y.1) ||
    (decide (x.1 = y.1) && (decide (x.2 < y.2) || (decide (x.2 = y.2) && decide (a < b))))

/-- The dock chosen where none is named (R29). -/
def State.chosenDock (s : State) : Option DockNo :=
  pickBest s.offeredFirst (allDocks.filter (fun d => s.available d))

/-- The dock of a release or a hold of a card that holds no hold (R29). -/
def State.findDock (s : State) : Option DockNo → Except RefusalReason DockNo
  | some d => s.namedDock d
  | none =>
    match s.chosenDock with
    | some d => .ok d
    | none => .error .noBike

/-- The dock of a release: a held dock before any named one (R29). A hold dock that is not HELD is a state no run
reaches (log 24). -/
def State.releaseDock (s : State) (c : CardEntry) (named : Option DockNo) : Except RefusalReason DockNo :=
  match c.holdDock with
  | some d => if (s.dock d).state.isHeld then .ok d else .error .dockState
  | none => s.findDock named

/-! ## RELEASE (R27 to R30) -/

/-- A provisional entry as it is created (R73); its in-flight dock is set by the release. -/
def State.provisionalEntry (s : State) (card : Nat) : CardEntry :=
  { number := card, state := .active, kind := .payg, tariff := 0, discount := 0, balance := 0, charged := 0,
    day := s.today, provisional := true, refCount := namingCount card s.journal.records, inFlight := none,
    holdDock := none, lastUse := s.stamp }

/-- The four conditions of the provisional path (R28). -/
def State.provisionalPath (s : State) (p : Port) : Bool :=
  decide (p = .terminal) && decide (s.time.link = .offline) && s.time.config.provisionalReleases
    && decide (s.provisionalCount < Config.provisionalLimit)

/-- What an accepted release works with: the cards with the releasing card's entry in them, the dock and the card
evicted to make that entry. -/
structure Grant where
  entry : CardEntry
  cards : List CardEntry
  dock : DockNo
  evicted : Option Nat

/-- Steps 4 to 9 of R27 on an entry: the dock of the release. -/
def State.judgeEntry (s : State) (c : CardEntry) (named : Option DockNo) : Except RefusalReason DockNo :=
  if c.state ≠ .active then .error .cardBlocked
  else if c.inFlight.isSome then .error .cardBusy
  else if !s.entitled c then .error .cardBlocked
  else
    match s.journalBars c with
    | some reason => .error reason
    | none =>
      match s.releaseDock c named with
      | .error reason => .error reason
      | .ok d => if s.rail.hasRoom then .ok d else .error .railBusy

/-- The checks of R27 in their order; the provisional entry of R28 is made last, and refused TABLE_FULL where no entry
may be evicted (log 12). -/
def State.judgeRelease (s : State) (p : Port) (req : RideReq) : Except RefusalReason Grant :=
  if !s.time.clockValid then .error .clockUnset
  else if s.fares.plan0.isNone then .error .noTariff
  else if s.time.stationMode = .closed then .error .stationClosed
  else
    match s.card req.card with
    | some c =>
      match s.judgeEntry c req.dock with
      | .ok d => .ok { entry := c, cards := s.cards, dock := d, evicted := none }
      | .error reason => .error reason
    | none =>
      if s.provisionalPath p then
        let c := s.provisionalEntry req.card
        match s.judgeEntry c req.dock with
        | .error reason => .error reason
        | .ok d =>
          match roomForCard s.cards with
          | some room => .ok { entry := c, cards := insertCard c room.1, dock := d, evicted := room.2 }
          | none => .error .tableFull
      else .error .unknownCard

/-- The ride number after one is taken (R25). -/
def nextRideAfter (n : Nat) : Nat := if 65535 ≤ n then 1 else n + 1

/-- The ride token of an accepted release (R25). -/
def State.buildToken (s : State) (c : CardEntry) : Token :=
  { origin := s.time.config.station.getD 0, ride := s.rides.nextRide, card := c.number, release := s.time.clock,
    tariff := if c.provisional then 0 else c.tariff, provisional := c.provisional }

/-- The bike of a dock from which a release may be given. -/
def State.bikeAt (s : State) (d : DockNo) : DockedBike := (s.dock d).state.bike?.getD ⟨0, 0, false⟩

/-- An accepted release, in the order of R30. -/
def State.grantRelease (p : RiderPort) (g : Grant) (s : State) : State :=
  let token := s.buildToken g.entry
  let s1 := State.reserve 1
    { s with rides := { s.rides with nextRide := nextRideAfter s.rides.nextRide }, cards := g.cards }
  let s2 := s1.putDockState g.dock (.unlocking (s.bikeAt g.dock)
    { card := token.card, ride := token.ride, provisional := token.provisional,
      window := s.time.config.unlockWindow, fetched := false, origin := p })
  let s3 := s2.modifyCard token.card
    (fun c => { c with holdDock := none, inFlight := some g.dock, lastUse := s.stamp })
  s3.pushCommand (.unlock g.dock token)

/-- RELEASE. -/
def ownRelease (p : Port) (req : RideReq) (s : State) : Handled :=
  orRefuse (s.judgeRelease p req) s (fun g =>
    accept (.released g.dock s.rides.nextRide g.evicted) (s.grantRelease (riderPortOf p) g))

/-! ## HOLD (R36) -/

/-- The checks of R36 in their order: the card's entry and the dock. -/
def State.judgeHold (s : State) (req : RideReq) : Except RefusalReason DockNo :=
  if !s.time.clockValid then .error .clockUnset
  else if s.fares.plan0.isNone then .error .noTariff
  else if s.time.stationMode = .closed then .error .stationClosed
  else
    match s.card req.card with
    | none => .error .unknownCard
    | some c =>
      if c.state ≠ .active then .error .cardBlocked
      else if c.inFlight.isSome then .error .cardBusy
      else if c.holdDock.isSome then .error .cardHolding
      else if !s.entitled c then .error .cardBlocked
      else if s.journal.mode = .reserve then .error .journalReserve
      else if Config.holdLimit ≤ s.holdCount then .error .holdLimit
      else s.findDock req.dock

/-- An accepted hold. -/
def State.grantHold (p : RiderPort) (card : Nat) (d : DockNo) (s : State) : State :=
  (s.putDockState d (.held (s.bikeAt d)
    { card := card, remaining := s.time.config.holdDuration, origin := p })).modifyCard card
      (fun c => { c with holdDock := some d, lastUse := s.stamp })

/-- HOLD. -/
def ownHold (p : Port) (req : RideReq) (s : State) : Handled :=
  orRefuse (s.judgeHold req) s (fun d =>
    accept (.held d s.time.config.holdDuration) (s.grantHold (riderPortOf p) req.card d))

/-! ## The ways a release ends (R31 to R34) -/

/-- The card's in-flight dock is cleared (R30, R69). -/
def State.clearInFlight (card : Nat) (s : State) : State :=
  s.modifyCard card (fun c => { c with inFlight := none })

/-- REMOVED completes the release (R31): its RELEASE record goes into its reserved slot, and RIDE_STARTED is set. -/
def State.completeRelease (d : DockNo) (b : DockedBike) (r : ReleaseRecord) (s : State) : State :=
  let s1 := (s.resolveDock (.release d) d).putDockState d .empty
  let s2 := s1.appendReserved 1 (.release r.card d b.bike r.ride r.origin r.provisional)
  (s2.clearInFlight r.card).outcome r.origin (.rideStarted r.ride) r.card d

/-- The reservation of a release is freed, its card's in-flight dock is cleared and RELEASE_LAPSED is set (R32, R34,
R141). -/
def State.endLapsed (d : DockNo) (r : ReleaseRecord) (reason : LapseReason) (s : State) : State :=
  ((s.unreserve 1).clearInFlight r.card).outcome r.origin (.releaseLapsed r.ride reason) r.card d

/-- A release lapses (R32, R33): its UNLOCK is given up, and the dock returns to DOCKED with its bike. -/
def State.lapseRelease (d : DockNo) (b : DockedBike) (r : ReleaseRecord) (reason : LapseReason) (s : State) :
    State :=
  ((s.giveUp (.release d) r.fetched).putDockState d (.docked b)).endLapsed d r reason

/-- The lapse reason of a window expiry (R32). -/
def ReleaseRecord.expiryReason (r : ReleaseRecord) : LapseReason := if r.fetched then .expired else .notFetched

/-- The window of a release reaches 0 (R32). -/
def State.expireRelease (d : DockNo) (b : DockedBike) (r : ReleaseRecord) (s : State) : State :=
  s.lapseRelease d b r r.expiryReason

/-! ## The ways a hold ends (R37 to R39) -/

/-- The card's hold dock is cleared (R69). -/
def State.clearHoldDock (card : Nat) (s : State) : State :=
  s.modifyCard card (fun c => { c with holdDock := none })

/-- A hold expires (R37). -/
def State.expireHold (d : DockNo) (b : DockedBike) (h : HoldRecord) (s : State) : State :=
  ((s.putDockState d (.docked b)).clearHoldDock h.card).outcome h.origin .holdExpired h.card d

/-- The ride controller ends a hold as lost (R39); the dock's state is the caller's. -/
def State.loseHold (d : DockNo) (h : HoldRecord) (cause : LossCause) (s : State) : State :=
  (s.clearHoldDock h.card).outcome h.origin (.holdLost cause) h.card d

/-- HOLD_CANCEL (R38). A hold dock that is not HELD is a state no run reaches (log 24). -/
def ownHoldCancel (p : Port) (card : Nat) (s : State) : Handled :=
  match s.card card with
  | none => refuse .notFound s
  | some c =>
    match c.holdDock with
    | none => refuse .notFound s
    | some d =>
      match (s.dock d).state with
      | .held b h =>
        if h.origin.port = p then accept (.cancelled d) ((s.putDockState d (.docked b)).clearHoldDock card)
        else refuse .notPermitted s
      | .absent | .empty | .docked _ | .unlocking _ _ | .vanHeld _ _ | .vanReserved _ | .outOfService _ _ =>
        refuse .notFound s

/-! ## The commands -/

/-- RELEASE. -/
def execRelease (port : Port) (bytes : List Byte) (s : State) : Host.Outcome State Fault Refusal :=
  .next (serve .release port bytes readRide (ownRelease port) s)

/-- HOLD. -/
def execHold (port : Port) (bytes : List Byte) (s : State) : Host.Outcome State Fault Refusal :=
  .next (serve .hold port bytes readRide (ownHold port) s)

/-- HOLD_CANCEL. -/
def execHoldCancel (port : Port) (bytes : List Byte) (s : State) : Host.Outcome State Fault Refusal :=
  .next (serve .holdCancel port bytes readCard (ownHoldCancel port) s)

end Sys2Proof.Machine
end

