-- ==== Sys2Proof/Machine/Faults.lean ====
section
/-! DEFINITION. The fault table controller: reports, scoring, quarantine and its effects on the docks, replacement in a
full table, clearing and inspecting. -/

namespace Sys2Proof.Machine

/-- A report on a bike: rider (terminal), crew (service) or internal (rail). -/
structure Report where
  bike : Nat
  dock : Option DockNo
  category : Category
  source : Port
  card : Option Nat
  deriving DecidableEq, Repr

/-! ## The table -/

/-- The order of replacement: the lowest score, then the earliest first-report time, then the lowest bike number
(R95). -/
def replacedFirst (a b : FaultEntry) : Bool :=
  decide (a.score < b.score) ||
    (decide (a.score = b.score) &&
      (decide (a.firstReport < b.firstReport) ||
        (decide (a.firstReport = b.firstReport) && decide (a.bike < b.bike))))

/-- The entry a full table would replace: among those not quarantined (R95). -/
def replacee (faults : List FaultEntry) : Option FaultEntry :=
  pickBest replacedFirst (faults.filter (fun e => !e.quarantined))

/-- Remove an entry whole. -/
def eraseFault (bike : Nat) (faults : List FaultEntry) : List FaultEntry := faults.filter (fun e => e.bike != bike)

/-- Write an entry at its place in ascending bike number, in place of any entry of the same bike. -/
def putFault (e : FaultEntry) : List FaultEntry → List FaultEntry
  | [] => [e]
  | x :: xs =>
    if e.bike < x.bike then e :: x :: xs
    else if e.bike = x.bike then e :: xs
    else x :: putFault e xs

/-- An entry as it is created, before its first report is scored (R90). -/
def freshFault (bike time : Nat) : FaultEntry :=
  { bike := bike, score := 0, categories := 0, reports := [], quarantined := false, firstReport := time }

/-- The entry a report will be scored on: the bike's own, or a fresh one with room made for it, whether it was created
and the bike replaced; nothing where every entry of a full table is quarantined (R95, R96). -/
structure Place where
  entry : FaultEntry
  faults : List FaultEntry
  created : Bool
  replaced : Option Nat

def State.placeReport (s : State) (bike : Nat) : Option Place :=
  match s.fault bike with
  | some e => some { entry := e, faults := s.faults, created := false, replaced := none }
  | none =>
    if s.faults.length < Config.faultPlaces then
      some { entry := freshFault bike s.stamp, faults := s.faults, created := true, replaced := none }
    else
      match replacee s.faults with
      | some old =>
        some { entry := freshFault bike s.stamp, faults := eraseFault old.bike s.faults, created := true,
               replaced := some old.bike }
      | none => none

/-! ## Scoring and quarantine (R91 to R93) -/

/-- The duplicate test: the same card and the same category stand on the list (R91). -/
def Report.duplicate (r : Report) (e : FaultEntry) : Bool :=
  match r.card with
  | some n => e.reports.any (fun x => x.card == some n && x.category == r.category)
  | none => false

/-- Push a report entry at the newest end of a last-reports list of at most 4 (R91). -/
def pushReport (x : ReportEntry) (l : List ReportEntry) : List ReportEntry :=
  if Config.reportPlaces ≤ l.length then l.drop (l.length + 1 - Config.reportPlaces) ++ [x] else l ++ [x]

/-- The scoring step (R91). -/
def Report.scoreOn (r : Report) (time : Nat) (e : FaultEntry) : FaultEntry :=
  { e with
    score := if r.duplicate e then e.score else min Config.scoreLimit (e.score + r.category.weight)
    categories := e.categories ||| r.category.single
    reports := pushReport { source := r.source, card := r.card, category := r.category, time := time } e.reports }

/-- The quarantine judgement on a scored entry whose flag is clear (R92). -/
def Report.quarantines (r : Report) (threshold : Nat) (e : FaultEntry) : Bool :=
  !e.quarantined && (decide (r.source = .service) || decide (threshold ≤ e.score))

/-- The effect of a quarantine on one dock (R93). -/
def State.quarantineDock (bike : Nat) (s : State) (d : DockNo) : State :=
  match (s.dock d).state with
  | .held b h =>
    if b.bike = bike then (s.putDockState d (.docked b)).loseHold d h .quarantined else s
  | .unlocking b r =>
    if b.bike = bike ∧ r.fetched = false then s.lapseRelease d b r .quarantined else s
  | .absent | .empty | .docked _ | .vanHeld _ _ | .vanReserved _ | .outOfService _ _ => s

/-- The dock effects of a quarantine, in ascending dock number (R93). -/
def State.quarantineDocks (bike : Nat) (s : State) : State := allDocks.foldl (State.quarantineDock bike) s

/-- The FAULT record of a report (R97). -/
def Report.record (r : Report) (score : Nat) (quarantined : Bool) : RecordBody :=
  .fault r.bike r.dock r.category r.source r.card score quarantined

/-- A report scored, judged, acted on and recorded, in the order of R97. -/
def State.takeReport (r : Report) (p : Place) (s : State) : State :=
  let e := r.scoreOn s.stamp p.entry
  let starts := r.quarantines s.time.config.threshold e
  let e' := { e with quarantined := e.quarantined || starts }
  let s1 := { s with faults := putFault e' p.faults }
  let s2 :=
    if starts then
      State.quarantineDocks r.bike ((s1.notify .service .quarantine).notify .uplink .quarantine)
    else s1
  s2.appendIfRoom (r.record e'.score e'.quarantined)

/-- An internal report is never refused; where the table has no place for its bike only its record is made, with a
score of 0 and the flag clear (R89, R96). -/
def State.internalReport (bike : Nat) (d : DockNo) (category : Category) (s : State) : State :=
  let r : Report := { bike := bike, dock := some d, category := category, source := .rail, card := none }
  match s.placeReport bike with
  | some p => s.takeReport r p
  | none => s.appendIfRoom (r.record 0 false)

/-- The record of a bike a census finds gone (R19, R98): the fault table is read and not written. -/
def State.recordMissing (bike : Nat) (d : DockNo) (s : State) : State :=
  let e := s.fault bike
  s.appendIfRoom (.fault bike (some d) .missing .rail none
    ((e.map (fun x => x.score)).getD 0) (s.isQuarantined bike))

/-! ## REPORT_FAULT (R87, R88) -/

/-- The categories a port's reports may carry (R86). -/
def categoryAllowed (p : Port) (c : Category) : Bool :=
  match p with
  | .terminal => c.rider
  | .service => c.crew
  | .rail | .uplink => false

/-- The bike of a report: as named, or as the named dock records it (R87). -/
def State.reportedBike (s : State) (req : ReportReq) : Except RefusalReason Nat :=
  match req.bike, req.dock with
  | some bike, none => .ok bike
  | none, some d =>
    match (s.dock d).state.bike? with
    | some b => .ok b.bike
    | none => .error .dockState
  | some _, some _ => .error .outOfRange
  | none, none => .error .outOfRange

/-- REPORT_FAULT in the order of its checks; the journal mode is judged for a rider report alone (R88). -/
def ownReportFault (p : Port) (req : ReportReq) (s : State) : Handled :=
  if categoryAllowed p req.category then
    orRefuse (s.reportedBike req) s (fun bike =>
      if p = .terminal ∧ s.journal.mode = .reserve then refuse .journalReserve s
      else
        match s.placeReport bike with
        | none => refuse .tableFull s
        | some place =>
          let r : Report :=
            { bike := bike, dock := req.dock, category := req.category, source := p, card := req.card }
          let e := r.scoreOn s.stamp place.entry
          accept (.faultReported bike (!r.duplicate place.entry)
              (e.quarantined || r.quarantines s.time.config.threshold e) place.created e.score place.replaced)
            (s.takeReport r place))
  else refuse .notPermitted s

/-! ## CLEAR_FAULT and FAULT_STATUS (R99, R100) -/

/-- CLEAR_FAULT. -/
def ownClearFault (p : Port) (bike : Nat) (s : State) : Handled :=
  match s.fault bike with
  | none => refuse .notFound s
  | some e =>
    accept (.faultCleared e.score e.categories e.quarantined)
      (State.appendIfRoom (.faultClear bike p) { s with faults := eraseFault bike s.faults })

/-- FAULT_STATUS. -/
def ownFaultStatus (query : FaultQuery) (s : State) : Handled :=
  match query with
  | .bike n =>
    match s.fault n with
    | none => refuse .notFound s
    | some e => accept (.faultEntry e) s
  | .list start =>
    let rest := s.faults.filter (fun e => decide (start ≤ e.bike))
    accept (.faultList s.faults.length (s.faults.countP (fun e => e.quarantined)) s.time.config.threshold
      ((rest.take 32).map (fun e => ⟨e.bike, e.score, e.quarantined⟩)) (decide (32 < rest.length))) s

/-! ## The commands -/

/-- REPORT_FAULT. -/
def execReportFault (port : Port) (bytes : List Byte) (s : State) : Host.Outcome State Fault Refusal :=
  .next (serve .reportFault port bytes (readReport port) (ownReportFault port) s)

/-- CLEAR_FAULT. -/
def execClearFault (port : Port) (bytes : List Byte) (s : State) : Host.Outcome State Fault Refusal :=
  .next (serve .clearFault port bytes readBike (ownClearFault port) s)

/-- FAULT_STATUS. -/
def execFaultStatus (port : Port) (bytes : List Byte) (s : State) : Host.Outcome State Fault Refusal :=
  .next (serve .faultStatus port bytes readFaultQuery ownFaultStatus s)

end Sys2Proof.Machine
end

