-- ==== Sys2Proof/Machine/Jobs.lean ====
section
/-! DEFINITION. The van job controller: walks and claims, starting a job, what the rail's reports do to it, and the
ways it ends. -/

namespace Sys2Proof.Machine

/-! ## Segments, walks and claims (R105, R106, R156) -/

/-- The 0-based index of the segment that holds a dock position, if one does. -/
def segmentAt : List Nat → Nat → Option Nat
  | [], _ => none
  | size :: sizes, i => if i < size then some 0 else (segmentAt sizes (i - size)).map (fun k => k + 1)

def StationConfig.segmentOf (c : StationConfig) (d : DockNo) : Option Nat := segmentAt c.segments d.val

/-- The docks of a segment, ascending. -/
def StationConfig.segmentDocks (c : StationConfig) (k : Nat) : List DockNo :=
  allDocks.filter (fun d => c.segmentOf d == some k)

/-- Docks 1 to N, ascending. -/
def StationConfig.stationDocks (c : StationConfig) : List DockNo :=
  allDocks.filter (fun d => decide (d.val < c.dockCount))

/-- The sequence of a walk (R105). -/
def StationConfig.walk (c : StationConfig) (start : DockNo) (direction : Direction) (walk : Walk) : List DockNo :=
  match walk, direction with
  | .wrap, .up =>
    let row := c.segmentDocks ((c.segmentOf start).getD 8)
    row.filter (fun d => decide (start ≤ d)) ++ row.filter (fun d => decide (d < start))
  | .wrap, .down =>
    let row := c.segmentDocks ((c.segmentOf start).getD 8)
    (row.filter (fun d => decide (d ≤ start))).reverse ++ (row.filter (fun d => decide (start < d))).reverse
  | .cross, .up => c.stationDocks.filter (fun d => decide (start ≤ d))
  | .cross, .down => (c.stationDocks.filter (fun d => decide (d ≤ start))).reverse

/-- Whether a walk claims the segment of a 0-based index (R106). -/
def StationConfig.claimed (c : StationConfig) (start : DockNo) (direction : Direction) (walk : Walk) (k : Nat) :
    Bool :=
  match c.segmentOf start with
  | none => false
  | some first =>
    match walk, direction with
    | .wrap, _ => decide (k = first)
    | .cross, .up => decide (first ≤ k) && decide (k < c.segments.length)
    | .cross, .down => decide (k ≤ first)

/-- The claim of a walk as a set of segments. -/
def StationConfig.claim (c : StationConfig) (start : DockNo) (direction : Direction) (walk : Walk) : SegmentSet :=
  (List.range 8).foldl (fun set k => if c.claimed start direction walk k then set ||| segmentBit k else set) 0

/-- Rewrite the segment claim map. -/
def mapClaims (f : Fin 8 → Option Nat → Option Nat) (v : Vector (Option Nat) 8) : Vector (Option Nat) 8 :=
  ⟨((List.finRange 8).map (fun k => f k v[k])).toArray, by simp⟩

/-- A claim overlaps the claim of an open job (R106). -/
def Vans.overlaps (v : Vans) (claim : SegmentSet) : Bool :=
  (List.finRange 8).any (fun k => claim.getLsbD k.val && (v.claims[k]).isSome)

/-- A job's claim is entered into the map. -/
def State.enterClaim (number : Nat) (claim : SegmentSet) (s : State) : State :=
  { s with vans :=
    { s.vans with
      claims := mapClaims (fun k old => if claim.getLsbD k.val then some number else old) s.vans.claims } }

/-- A job's claims leave the map. -/
def State.leaveClaim (number : Nat) (s : State) : State :=
  { s with vans :=
    { s.vans with claims := mapClaims (fun _ old => if old = some number then none else old) s.vans.claims } }

/-! ## Items and the reservation of a job -/

def MarkedItem.isOpen (i : MarkedItem) : Bool :=
  match i.outcome with
  | .open => true
  | .moved | .faulted | .returned => false

/-- The docks of the OPEN items. -/
def JobRecord.openDocks (j : JobRecord) : List DockNo := (j.marked.filter MarkedItem.isOpen).map (fun i => i.dock)

/-- The outcome of a dock's item. -/
def JobRecord.setOutcome (d : DockNo) (o : ItemOutcome) (j : JobRecord) : JobRecord :=
  { j with marked := j.marked.map (fun i => if i.dock = d then { i with outcome := o } else i) }

/-- A bike is counted. -/
def JobRecord.count (bike : Option Nat) (unsettled : Bool) (j : JobRecord) : JobRecord :=
  { j with moved := j.moved ++ [⟨bike, unsettled⟩] }

/-- The reservation size of a requested count (R109). -/
def reservationSize (requested : Nat) : Nat := 1 + (requested + 7) / 8

/-- The JOB_END record of a job as it stands (R125, R132). -/
def JobRecord.endRecord (j : JobRecord) : JobEnd :=
  { number := j.number, kind := j.kind, origin := j.origin, conditions := j.conditions, requested := j.requested,
    position := j.position, mismatch := j.mismatch, moved := j.moved }

/-- A job ends (R125): it becomes ENDED, its JOB_END goes into its reservation, its claims leave the map and
JOB_ENDED is set at its origin port. -/
def State.endJob (slot : SlotNo) (j : JobRecord) (s : State) : State :=
  let s1 := s.setJob slot (some { j with state := .ended, window := none })
  let s2 := s1.appendReserved (reservationSize j.requested) (.jobEnd j.endRecord)
  (s2.leaveClaim j.number).notify j.origin.port .jobEnded

/-- A job is written back, and ends where no item remains OPEN. -/
def State.settleJob (slot : SlotNo) (j : JobRecord) (s : State) : State :=
  if j.openDocks.isEmpty then s.endJob slot j else s.setJob slot (some j)

/-- Work on the job that a number names; a number no slot holds is a state no run reaches (log 24). -/
def State.withJob (number : Nat) (work : SlotNo → JobRecord → State → State) (s : State) : State :=
  match s.slotOf number with
  | none => s
  | some slot =>
    match s.job slot with
    | some j => work slot j s
    | none => s

/-! ## What the rail's reports do (R116, R117, R119 to R122) -/

/-- REMOVED on a VAN_HELD dock is counted (R116). -/
def State.countRemoval (number : Nat) (d : DockNo) (b : DockedBike) (s : State) : State :=
  s.withJob number (fun slot j => State.settleJob slot ((j.setOutcome d .moved).count (some b.bike) b.tokenHeld))

/-- A dock fault takes a dock out of its job (R117, R122). -/
def State.faultItem (number : Nat) (d : DockNo) (s : State) : State :=
  s.withJob number (fun slot j =>
    let j' := j.setOutcome d .faulted
    State.settleJob slot { j' with conditions := { j'.conditions with dockFault := true } })

/-- A tokenless insertion into a reserved dock is counted (R119). -/
def State.countDelivery (number : Nat) (d : DockNo) (bike : Nat) (s : State) : State :=
  s.withJob number (fun slot j => State.settleJob slot ((j.setOutcome d .moved).count (some bike) false))

/-- The rest of a job's walk beyond its position. -/
def State.beyond (s : State) (j : JobRecord) : List DockNo :=
  ((s.time.config.walk j.start j.direction j.walk).dropWhile (fun d => d != j.position)).drop 1

/-- EMPTY and verified: what a deliver walk marks (R112). -/
def State.deliverable (s : State) (d : DockNo) : Bool := (s.dock d).state.isEmpty && (s.dock d).verified

/-- A rider's return into a reserved dock (R120): its item is removed and the next EMPTY verified dock beyond the
position is marked, or SHORT is added. -/
def State.remark (number : Nat) (d : DockNo) (s : State) : State :=
  s.withJob number (fun slot j s' =>
    let j' := { j with marked := j.marked.filter (fun i => i.dock != d) }
    match (s'.beyond j).find? (fun x => s'.deliverable x) with
    | some x =>
      (s'.putDockState x (.vanReserved number)).settleJob slot
        { j' with marked := j'.marked ++ [⟨x, .open⟩], position := x }
    | none => s'.settleJob slot { j' with conditions := { j'.conditions with short := true } })

/-- A marked dock returns to its former state with its job number cleared. -/
def State.returnDock (s : State) (d : DockNo) : State :=
  match (s.dock d).state with
  | .vanHeld b _ => s.putDockState d (.docked b)
  | .vanReserved _ => s.putDockState d .empty
  | .absent | .empty | .docked _ | .held _ _ | .unlocking _ _ | .outOfService _ _ => s

/-- The FILLING job whose claim holds a dock. -/
def State.fillingAt (s : State) (d : DockNo) : Option SlotNo :=
  match s.time.config.segmentOf d with
  | none => none
  | some k =>
    allSlots.find? (fun slot => match s.job slot with
      | some j => decide (j.state = .filling) && j.claimed.getLsbD k
      | none => false)

/-- A tokenless insertion into an EMPTY dock inside the claim of a FILLING job (R121): it is counted, and the last
OPEN reservation reverts. -/
def State.countStray (d : DockNo) (bike : Nat) (s : State) : State :=
  match s.fillingAt d with
  | none => s
  | some slot =>
    match s.job slot with
    | none => s
    | some j =>
      let j' := j.count (some bike) false
      match j'.openDocks.getLast? with
      | some last =>
        (s.returnDock last).settleJob slot
          { j' with marked := j'.marked.filter (fun i => i.dock != last) }
      | none => s.settleJob slot j'

/-! ## The end of a job's time (R123, R124) -/

/-- The OPEN items become RETURNED. -/
def JobRecord.returnItems (j : JobRecord) : JobRecord :=
  { j with marked := j.marked.map (fun i => if i.isOpen then { i with outcome := .returned } else i) }

/-- An open job is ended before its items are resolved: its docks are returned, its batch is closed as R9 gives, the
condition is added and the job ends (R123, R124). -/
def State.cutJob (slot : SlotNo) (j : JobRecord) (add : EndConditions → EndConditions) (s : State) : State :=
  let s1 := j.openDocks.foldl State.returnDock s
  let s2 :=
    match j.batchFetched with
    | some fetched => s1.giveUp (.job j.number) fetched
    | none => s1
  let j' := j.returnItems
  s2.endJob slot { j' with conditions := add j'.conditions }

/-- The van window of a job reaches 0 (R123). -/
def State.expireJob (slot : SlotNo) (j : JobRecord) (s : State) : State :=
  s.cutJob slot j (fun c => { c with late := true })

/-! ## START_JOB (R107 to R114) -/

/-- What a walk does at a dock. -/
inductive Judgement
  | mark | pass | stop
  deriving DecidableEq, Repr

/-- How a walk ended (R113). -/
inductive WalkEnd
  | full | ranOut
  | stopped (dock : DockNo)
  deriving DecidableEq, Repr

/-- A COLLECT walk's judgement of a dock (R110). -/
def State.judgeCollect (s : State) (handling : FaultHandling) (d : DockNo) : Judgement :=
  match (s.dock d).state with
  | .docked _ =>
    if s.available d then .mark
    else if (s.dock d).verified then
      match handling with
      | .skip => .pass
      | .stop => .stop
    else .pass
  | .absent | .empty | .held _ _ | .unlocking _ _ | .vanHeld _ _ | .vanReserved _ | .outOfService _ _ => .pass

/-- A SWEEP walk's judgement (R111). -/
def State.judgeSweep (s : State) (d : DockNo) : Judgement :=
  match (s.dock d).state with
  | .docked b => if (s.dock d).verified && (s.isQuarantined b.bike || b.tokenHeld) then .mark else .pass
  | .absent | .empty | .held _ _ | .unlocking _ _ | .vanHeld _ _ | .vanReserved _ | .outOfService _ _ => .pass

/-- A DELIVER walk's judgement (R112). -/
def State.judgeDeliver (s : State) (d : DockNo) : Judgement := if s.deliverable d then .mark else .pass

/-- The judgement of a job's kind; an AUDIT marks nothing (R114). -/
def State.judgeDock (s : State) (kind : JobKind) (handling : Option FaultHandling) : DockNo → Judgement :=
  match kind with
  | .collect => s.judgeCollect (handling.getD .skip)
  | .sweep => s.judgeSweep
  | .deliver => s.judgeDeliver
  | .audit => fun _ => .pass

/-- A marking walk: the docks marked, in walk order, and how it ended. -/
def walkMarks (judge : DockNo → Judgement) : Nat → List DockNo → List DockNo × WalkEnd
  | 0, _ => ([], .full)
  | _ + 1, [] => ([], .ranOut)
  | n + 1, d :: ds =>
    match judge d with
    | .mark => (d :: (walkMarks judge n ds).1, (walkMarks judge n ds).2)
    | .pass => walkMarks judge (n + 1) ds
    | .stop => ([], .stopped d)

/-- The position a marking walk leaves (R113). -/
def WalkEnd.position (start : DockNo) (marks sequence : List DockNo) : WalkEnd → DockNo
  | .full => marks.getLast?.getD start
  | .ranOut => sequence.getLast?.getD start
  | .stopped d => d

/-- The conditions a marking walk adds (R113). -/
def WalkEnd.conditions (walk : Walk) : WalkEnd → EndConditions
  | .full => EndConditions.none
  | .ranOut => { EndConditions.none with short := true, walkLimit := decide (walk = .cross) }
  | .stopped _ => { EndConditions.none with short := true, stoppedAtFault := true }

/-- A dock is marked for a job (R110 to R112). -/
def State.markDock (number : Nat) (s : State) (d : DockNo) : State :=
  match (s.dock d).state with
  | .docked b => s.putDockState d (.vanHeld b number)
  | .empty => s.putDockState d (.vanReserved number)
  | .absent | .held _ _ | .unlocking _ _ | .vanHeld _ _ | .vanReserved _ | .outOfService _ _ => s

/-- The requested count: for an AUDIT the length of the expected list (R102). -/
def StartReq.count (req : StartReq) : Nat :=
  match req.kind with
  | .audit => (req.expected.getD []).length
  | .collect | .sweep | .deliver => req.requested.getD 0

/-- The parameters that cannot be carried out (R108, step 1). -/
def State.jobIllegal (s : State) (req : StartReq) : Bool :=
  let c := s.time.config
  decide (c.dockCount ≤ req.start.val) ||
    (match req.kind with
      | .collect => req.faultHandling.isNone || req.requested.isNone || req.expected.isSome
      | .sweep | .deliver => req.faultHandling.isSome || req.requested.isNone || req.expected.isSome
      | .audit =>
        req.faultHandling.isSome || req.requested.isSome ||
          (match req.expected with
            | none => true
            | some l =>
              l.isEmpty || decide ((c.walk req.start req.direction req.walk).length < l.length)))

def State.freeSlot (s : State) : Option SlotNo := allSlots.find? (fun i => (s.job i).isNone)

/-- The checks of R108 in their order: the slot the job takes. -/
def State.judgeStart (s : State) (req : StartReq) : Except RefusalReason SlotNo :=
  if s.jobIllegal req then .error .jobIllegal
  else
    match s.freeSlot with
    | none => .error .tableFull
    | some slot =>
      if s.vans.overlaps (s.time.config.claim req.start req.direction req.walk) then .error .segmentBusy
      else if (s.journal.mode = .reserve ∧ req.kind ≠ .audit) ∨ s.freeSlots < reservationSize req.count then
        .error .journalReserve
      else if (req.kind = .collect ∨ req.kind = .sweep) ∧ !s.rail.hasRoom then .error .railBusy
      else .ok slot

/-- A job number is held by a slot. -/
def State.numberHeld (s : State) (n : Nat) : Bool := (s.slotOf n).isSome

/-- The job number after one: 1 after 255. -/
def nextJobAfter (n : Nat) : Nat := if 255 ≤ n then 1 else n + 1

/-- The first number, counting up from a number and wrapping from 255 to 1, that no slot holds (R103). -/
def State.freeNumber (s : State) : Nat → Nat → Nat
  | 0, n => n
  | fuel + 1, n => if s.numberHeld n then s.freeNumber fuel (nextJobAfter n) else n

def State.takenNumber (s : State) : Nat := s.freeNumber 4 s.vans.nextJob

/-- The record of a job as its request fills it (R109, step 1); the position is set by the walk. -/
def StartReq.fill (req : StartReq) (number : Nat) (origin : CrewPort) (claim : SegmentSet) : JobRecord :=
  { number := number, origin := origin, kind := req.kind, start := req.start, direction := req.direction,
    walk := req.walk, faultHandling := req.faultHandling, requested := req.count, marked := [], moved := [],
    expected := req.expected, position := req.start, mismatch := none, claimed := claim,
    batchFetched := (match req.kind with
      | .collect | .sweep => some false
      | .deliver | .audit => none),
    state := .ended, conditions := EndConditions.none, window := none }

/-- What a dock records of a bike number (R114). -/
def State.recorded (s : State) (d : DockNo) : Option Nat := (s.dock d).state.bike?.map (fun b => b.bike)

/-- The AUDIT walk (R114): its counted docks, its position and its first mismatch. -/
def State.audit (s : State) (expected : List (Option Nat)) (sequence : List DockNo) (j : JobRecord) : JobRecord :=
  let pairs := sequence.zip expected
  let mismatch := pairs.find? (fun p => s.recorded p.1 != p.2)
  { j with
    moved := pairs.map (fun p => ⟨s.recorded p.1, false⟩)
    mismatch := mismatch.map (fun p => p.1)
    position :=
      match mismatch with
      | some p => p.1
      | none => (pairs.getLast?.map (fun p => p.1)).getD j.start
    conditions := { j.conditions with mismatch := mismatch.isSome } }

/-- An accepted job after its walk: an AUDIT, and a job that marked nothing, ends at once; the others mark their docks,
start their window, and a COLLECT or SWEEP queues its batch (R109). -/
def State.startWalk (slot : SlotNo) (req : StartReq) (j : JobRecord) (s : State) : State :=
  let sequence := s.time.config.walk req.start req.direction req.walk
  match req.kind with
  | .audit => s.endJob slot (s.audit (req.expected.getD []) sequence j)
  | .collect | .sweep | .deliver =>
    let r := walkMarks (s.judgeDock req.kind req.faultHandling) req.count sequence
    let j1 := { j with
      marked := r.1.map (fun d => ⟨d, .open⟩)
      position := r.2.position req.start r.1 sequence
      conditions := r.2.conditions req.walk }
    if r.1.isEmpty then s.endJob slot j1
    else
      let s1 := r.1.foldl (State.markDock j.number) s
      match req.kind with
      | .collect | .sweep =>
        (s1.setJob slot (some { j1 with state := .open, window := some s.time.config.vanWindow })).pushCommand
          (.batchUnlock j.number r.1)
      | .deliver | .audit =>
        s1.setJob slot (some { j1 with state := .filling, window := some s.time.config.vanWindow })

/-- An accepted START_JOB, in the order of R109. -/
def State.startJob (slot : SlotNo) (origin : CrewPort) (req : StartReq) (s : State) : State :=
  let number := s.takenNumber
  let claim := s.time.config.claim req.start req.direction req.walk
  let s1 := State.enterClaim number claim { s with vans := { s.vans with nextJob := nextJobAfter number } }
  (s1.reserve (reservationSize req.count)).startWalk slot req (req.fill number origin claim)

/-- The START_JOB answer, from the record the event leaves (R109). -/
def jobStartedAnswer (j : JobRecord) : AcceptBody :=
  .jobStarted j.number j.state (j.marked.map (fun i => i.dock)) j.position j.conditions j.mismatch

/-- START_JOB. -/
def ownStartJob (p : Port) (req : StartReq) (s : State) : Handled :=
  orRefuse (s.judgeStart req) s (fun slot =>
    let s' := s.startJob slot (crewPortOf p) req
    match s'.job slot with
    | some j => accept (jobStartedAnswer j) s'
    | none => refuse .tableFull s)

/-! ## JOB_STATUS, RETIRE_JOB, ABORT_JOB (R124, R126, R127) -/

/-- A port sees a job: the uplink port every job, the service port its own (R126). -/
def JobRecord.seenBy (j : JobRecord) (p : Port) : Bool := decide (p = .uplink) || decide (j.origin.port = p)

/-- The job a request names, judged as R124, R126 and R127 begin. -/
def State.namedJob (s : State) (p : Port) (number : Nat) : Except RefusalReason (SlotNo × JobRecord) :=
  match s.slotOf number with
  | none => .error .jobUnknown
  | some slot =>
    match s.job slot with
    | none => .error .jobUnknown
    | some j => if j.seenBy p then .ok (slot, j) else .error .notPermitted

def JobRecord.line (j : JobRecord) : JobLine :=
  { number := j.number, kind := j.kind, origin := j.origin, state := j.state, conditions := j.conditions,
    requested := j.requested, moved := j.moved.length, window := j.window }

def State.freeJobSlots (s : State) : Nat := allSlots.countP (fun i => (s.job i).isNone)

/-- JOB_STATUS. -/
def ownJobStatus (p : Port) (number : Option Nat) (s : State) : Handled :=
  match number with
  | some n => orRefuse (s.namedJob p n) s (fun x => accept (.job x.2) s)
  | none =>
    accept (.jobLines s.freeJobSlots
      (((allSlots.filterMap (fun i => s.job i)).filter (fun j => j.seenBy p)).map JobRecord.line)) s

/-- RETIRE_JOB. -/
def ownRetireJob (p : Port) (number : Nat) (s : State) : Handled :=
  orRefuse (s.namedJob p number) s (fun x =>
    if x.2.isOpen then refuse .jobOpen s else accept .nothing (s.setJob x.1 none))

/-- ABORT_JOB. -/
def ownAbortJob (p : Port) (number : Nat) (s : State) : Handled :=
  orRefuse (s.namedJob p number) s (fun x =>
    if x.2.isOpen then
      accept (.aborted { x.2.conditions with aborted := true } x.2.moved.length x.2.openDocks.length)
        (s.cutJob x.1 x.2 (fun c => { c with aborted := true }))
    else refuse .jobIllegal s)

/-! ## The commands -/

/-- START_JOB. -/
def execStartJob (port : Port) (bytes : List Byte) (s : State) : Host.Outcome State Fault Refusal :=
  .next (serve .startJob port bytes readStart (ownStartJob port) s)

/-- JOB_STATUS. -/
def execJobStatus (port : Port) (bytes : List Byte) (s : State) : Host.Outcome State Fault Refusal :=
  .next (serve .jobStatus port bytes readOptJob (ownJobStatus port) s)

/-- RETIRE_JOB. -/
def execRetireJob (port : Port) (bytes : List Byte) (s : State) : Host.Outcome State Fault Refusal :=
  .next (serve .retireJob port bytes readJob (ownRetireJob port) s)

/-- ABORT_JOB. -/
def execAbortJob (port : Port) (bytes : List Byte) (s : State) : Host.Outcome State Fault Refusal :=
  .next (serve .abortJob port bytes readJob (ownAbortJob port) s)

end Sys2Proof.Machine
end

