-- ==== Sys2Proof/Machine/Docks.lean ====
section
/-! DEFINITION. The dock table controller: fetching commands, the rail's reports REMOVED, LOCK_JAM, SENSOR_FAULT and
CENSUS, restoring and inspecting docks. -/

namespace Sys2Proof.Machine

/-! ## FETCH_COMMAND (R7, R8, R115) -/

/-- The fetched flag of the release record on a dock is set. -/
def State.markFetched (d : DockNo) (s : State) : State :=
  match (s.dock d).state with
  | .unlocking b r => s.putDockState d (.unlocking b { r with fetched := true })
  | .absent | .empty | .docked _ | .held _ _ | .vanHeld _ _ | .vanReserved _ | .outOfService _ _ => s

/-- An opening command becomes fetched-open: its open-command record holds the docks it named. -/
def State.openCommand (owner : OpenOwner) (docks : List DockNo) (s : State) : State :=
  { s with rail := { s.rail with opens := s.rail.opens ++ [⟨owner, docks⟩] } }

/-- The effect of a fetch on the command taken from the queue (R7). -/
def State.fetch (c : Command) (s : State) : State :=
  match c with
  | .unlock d _ => (s.openCommand (.release d) [d]).markFetched d
  | .batchUnlock number docks =>
    (s.openCommand (.job number) docks).withJob number
      (fun slot j s' => s'.setJob slot (some { j with batchFetched := some true }))
  | .relock _ => s
  | .readToken d => { s with rail := { s.rail with awaited := some d } }

/-- FETCH_COMMAND: the oldest command leaves the queue and is answered; an empty queue answers NONE and nothing
changes. -/
def ownFetchCommand (_ : Unit) (s : State) : Handled :=
  match s.rail.queue with
  | [] => accept (.fetched none 0) s
  | c :: cs =>
    accept (.fetched (some c) cs.length) (State.fetch c { s with rail := { s.rail with queue := cs } })

/-! ## REMOVED (R11 to R14) -/

/-- A dock is taken out of a queued opening command (R11). -/
def State.dropOpening (d : DockNo) (s : State) : State :=
  { s with rail := { s.rail with queue := s.rail.queue.filterMap (Command.withoutOpening d) } }

/-- A forced removal (R13): the dock goes EMPTY, it leaves every queued RELOCK, a hold on it is lost, and a
FORCED_REMOVAL report is made on the recorded bike. -/
def State.forceRemoval (d : DockNo) (b : DockedBike) (h : Option HoldRecord) (s : State) : State :=
  let s1 := ((s.dropOpening d).dropRelock d).putDockState d .empty
  let s2 :=
    match h with
    | some h => s1.loseHold d h .forcedRemoval
    | none => s1
  s2.internalReport b.bike d .forcedRemoval

/-- REMOVED, by the state the report finds; the recorded bike number is the one used (R11). -/
def ownRemoved (req : RemovedReq) (s : State) : Handled :=
  let d := req.dock
  match (s.dock d).state with
  | .absent => refuse .dockState s
  | .empty => refuse .dockState s
  | .vanReserved _ => refuse .dockState s
  | .outOfService none _ => refuse .dockState s
  | .outOfService (some b) k => accept (.removed b.bike) ((s.dropOpening d).putDockState d (.outOfService none k))
  | .docked b => accept (.removed b.bike) (s.forceRemoval d b none)
  | .held b h => accept (.removed b.bike) (s.forceRemoval d b (some h))
  | .unlocking b r => accept (.removed b.bike) (s.completeRelease d b r)
  | .vanHeld b number =>
    accept (.removed b.bike) (((s.resolveDock (.job number) d).putDockState d .empty).countRemoval number d b)

/-! ## Dock faults (R15, R16, R34, R117, R122) -/

/-- A dock fault on a dock in any state but ABSENT: the dock goes OUT_OF_SERVICE and keeps its bike, DOCK_FAULT is set
at the service and uplink ports, and the state found adds its effects. -/
def State.dockFault (kind : DockFaultKind) (d : DockNo) (s : State) : State :=
  let st := (s.dock d).state
  let s1 := ((s.putDockState d (.outOfService st.bike? kind)).notify .service .dockFault).notify .uplink .dockFault
  match st with
  | .absent => s
  | .empty => s1
  | .docked _ => s1
  | .held _ h => s1.loseHold d h .dockFault
  | .unlocking _ r => (s1.resolveDock (.release d) d).endLapsed d r .jammed
  | .vanHeld _ number => (s1.resolveDock (.job number) d).faultItem number d
  | .vanReserved number => s1.faultItem number d
  | .outOfService _ _ => s1

/-- LOCK_JAM and SENSOR_FAULT with their fault kind. -/
def reportDockFault (kind : DockFaultKind) (d : DockNo) (s : State) : Handled :=
  if (s.dock d).state.isAbsent then refuse .dockState s else accept .nothing (s.dockFault kind d)

def ownLockJam (d : DockNo) (s : State) : Handled := reportDockFault .lockJam d s

def ownSensorFault (req : SensorReq) (s : State) : Handled := reportDockFault req.fault req.dock s

/-! ## CENSUS (R17 to R19) -/

/-- A census item that contradicts itself (R17). -/
def CensusItem.consistent (i : CensusItem) : Bool :=
  if i.present then i.bike.isSome else i.bike.isNone && !i.tokenPresent

/-- The checks of R17 on the whole report. -/
def State.censusSound (s : State) (req : CensusReq) : Bool :=
  (match req.scope with
    | none => true
    | some k => decide (k.val < s.time.config.segments.length))
  && req.items.all (fun i =>
      !(s.dock i.dock).state.isAbsent && i.consistent
        && (match req.scope with
            | none => true
            | some k => s.time.config.segmentOf i.dock == some k.val))
  && decide ((req.items.map (fun i => i.dock)).Nodup)

/-- The bike a census item finds, docked now. -/
def State.foundBike (s : State) (i : CensusItem) : Option DockedBike :=
  i.bike.map (fun bike => { bike := bike, since := s.stamp, tokenHeld := i.tokenPresent })

/-- Whether a census item finds the recorded bike gone (R18). -/
def State.censusMisses (s : State) (i : CensusItem) : Bool :=
  match (s.dock i.dock).state with
  | .docked b | .held b _ | .outOfService (some b) _ => i.bike != some b.bike
  | .absent | .empty | .unlocking _ _ | .vanHeld _ _ | .vanReserved _ | .outOfService none _ => false

/-- The state a census item leaves a dock in, its verified flag set (R18); an ABSENT dock never passes R17. -/
def State.censusState (s : State) (i : CensusItem) : DockState :=
  let found := s.foundBike i
  let settled := match found with
    | some b => DockState.docked b
    | none => DockState.empty
  match (s.dock i.dock).state with
  | .empty => settled
  | .docked b => if i.bike = some b.bike then .docked b else settled
  | .held b h => if i.bike = some b.bike then .held b h else settled
  | .outOfService (some b) k =>
    if i.bike = some b.bike then .outOfService (some b) k else .outOfService found k
  | .outOfService none k => .outOfService found k
  | .absent => .absent
  | .unlocking b r => .unlocking b r
  | .vanHeld b j => .vanHeld b j
  | .vanReserved j => .vanReserved j

/-- One census item is applied (R18): the dock is corrected and verified, a vanished bike is recorded MISSING, and a
HELD dock whose bike vanished loses its hold. -/
def State.censusItem (s : State) (i : CensusItem) : State :=
  let d := i.dock
  let st := (s.dock d).state
  if st.isAbsent then s
  else
    let s1 := s.putDock d ⟨s.censusState i, true⟩
    if s.censusMisses i then
      let s2 := match st.bike? with
        | some b => s1.recordMissing b.bike d
        | none => s1
      match st with
      | .held _ h => s2.loseHold d h .missing
      | .absent | .empty | .docked _ | .unlocking _ _ | .vanHeld _ _ | .vanReserved _ | .outOfService _ _ => s2
    else s1

/-- CENSUS: checked as a whole, then applied item by item in list order; no dock is listed twice, so the bikes missing
are those the table missed before. -/
def ownCensus (req : CensusReq) (s : State) : Handled :=
  if s.censusSound req then
    accept (.census req.items.length (req.items.countP (fun i => s.censusMisses i)))
      (req.items.foldl State.censusItem s)
  else refuse .outOfRange s

/-! ## DOCK_RESTORE and DOCK_STATUS (R20, R21) -/

/-- DOCK_RESTORE. -/
def ownDockRestore (d : DockNo) (s : State) : Handled :=
  match (s.dock d).state with
  | .outOfService bike _ =>
    let st := match bike with
      | some b => DockState.docked b
      | none => DockState.empty
    accept .nothing ((s.putDock d ⟨st, false⟩).notify .rail .censusWanted)
  | .absent | .empty | .docked _ | .held _ _ | .unlocking _ _ | .vanHeld _ _ | .vanReserved _ =>
    refuse .dockState s

/-- DOCK_STATUS. -/
def ownDockStatus (query : Option DockNo) (s : State) : Handled :=
  match query with
  | some d => accept (.dock (s.dock d)) s
  | none => accept (.dockList (s.time.config.stationDocks.map (fun d => s.dock d))) s

/-! ## The commands -/

/-- FETCH_COMMAND. -/
def execFetchCommand (port : Port) (bytes : List Byte) (s : State) : Host.Outcome State Fault Refusal :=
  .next (serve .fetchCommand port bytes readEmpty ownFetchCommand s)

/-- REMOVED. -/
def execRemoved (port : Port) (bytes : List Byte) (s : State) : Host.Outcome State Fault Refusal :=
  .next (serve .removed port bytes readRemoved ownRemoved s)

/-- LOCK_JAM. -/
def execLockJam (port : Port) (bytes : List Byte) (s : State) : Host.Outcome State Fault Refusal :=
  .next (serve .lockJam port bytes readDock ownLockJam s)

/-- SENSOR_FAULT. -/
def execSensorFault (port : Port) (bytes : List Byte) (s : State) : Host.Outcome State Fault Refusal :=
  .next (serve .sensorFault port bytes readSensor ownSensorFault s)

/-- CENSUS. -/
def execCensus (port : Port) (bytes : List Byte) (s : State) : Host.Outcome State Fault Refusal :=
  .next (serve .census port bytes readCensus ownCensus s)

/-- DOCK_RESTORE. -/
def execDockRestore (port : Port) (bytes : List Byte) (s : State) : Host.Outcome State Fault Refusal :=
  .next (serve .dockRestore port bytes readDock ownDockRestore s)

/-- DOCK_STATUS. -/
def execDockStatus (port : Port) (bytes : List Byte) (s : State) : Host.Outcome State Fault Refusal :=
  .next (serve .dockStatus port bytes readOptDock ownDockStatus s)

end Sys2Proof.Machine
end

