-- ==== Sys2Proof/Machine/Returns.lean ====
section
/-! DEFINITION. Returns: the settlement of a token, INSERTED and TOKEN_REPORT, and the sweep's own command. -/

namespace Sys2Proof.Machine

/-! ## Settlement (R41 to R43) -/

/-- The settled-ride list takes a pair, newest last; with 64 pairs the oldest is dropped (R43). -/
def pushSettled (pair : Nat × Nat) (l : List (Nat × Nat)) : List (Nat × Nat) :=
  if Config.settledPlaces ≤ l.length then l.drop (l.length + 1 - Config.settledPlaces) ++ [pair] else l ++ [pair]

/-- What a report of a token comes to. -/
structure Settlement where
  station : State
  answer : ReturnAnswer
  charge : Option Nat

/-- The card entry a fare is charged to: the token's card where it has an entry that is not provisional; nothing where
the fare is deferred (R42). -/
def State.chargedEntry (s : State) (card : Nat) : Option CardEntry :=
  match s.card card with
  | some c => if c.provisional then none else some c
  | none => none

/-- The RIDE_END fields that the settlement and steps 1 to 9 give (R62, R132). -/
def rideEndOf (t : Token) (bike : Nat) (d : DockNo) (u : Duration) (f : FareFigures) (returnDay : Int)
    (substituted : Bool) : RideEnd :=
  { card := t.card, bike := bike, dock := d, origin := t.origin, ride := t.ride, release := t.release,
    duration := u.seconds, tariff := t.tariff, baseBlocks := f.baseBlocks, overstayBlocks := f.overstayBlocks,
    gross := f.gross, discounted := f.discounted, capped := f.capped, surchargeCharged := f.surchargeCharged,
    baseCharged := f.baseCharged, charge := f.charge, delta := 0, balanceAfter := 0, unrecovered := 0,
    returnDay := returnDay,
    flags := { FareFlags.none with
               clockSuspect := u.suspect, durationClamped := u.clamped, saturated := f.saturated,
               tariffSubstituted := substituted } }

/-- The fare of a token under a resolved plan is computed, applied and recorded, and its pair is settled (R41, step
2). -/
def State.chargeRide (t : Token) (bike : Nat) (d : DockNo) (returnTime : Nat) (plan : Plan) (substituted : Bool)
    (s : State) : Settlement :=
  let u := fareDuration returnTime t.release
  let returnDay := s.dayIndex returnTime
  let entry := s.chargedEntry t.card
  let basis := match entry with
    | some c => c.basis
    | none => deferredBasis returnDay
  let f := fareFigures plan basis (s.dayIndex t.release) returnDay u.seconds
  let fields := rideEndOf t bike d u f returnDay substituted
  let rides := { s.rides with settled := pushSettled (t.origin, t.ride) s.rides.settled }
  match entry with
  | some c =>
    let after := applyCharge plan f returnDay s.time.clock c
    let record : RideEnd :=
      { fields with
        delta := after.balance - c.balance
        balanceAfter := after.balance
        unrecovered := after.balance - rawBalance c f.charge
        flags := { fields.flags with balanceLimit := decide (rawBalance c f.charge < Config.balanceFloor) } }
    { station := State.append (.rideEnd record)
        (State.modifyCard t.card (applyCharge plan f returnDay s.time.clock) { s with rides := rides })
      answer := .settled
      charge := some f.charge }
  | none =>
    let record : RideEnd :=
      { fields with
        balanceAfter := (match s.card t.card with
          | some c => c.balance
          | none => 0)
        flags := { fields.flags with deferred := true } }
    { station := State.append (.rideEnd record) { s with rides := rides }
      answer := .settled
      charge := some f.charge }

/-- A reported token: already settled, settled now, or kept (R41). -/
def State.settle (t : Token) (bike : Nat) (d : DockNo) (returnTime : Nat) (s : State) : Settlement :=
  let keep : Settlement :=
    { station := s.notify .uplink .tokenHeld, answer := .keepToken, charge := none }
  if s.rides.settled.contains (t.origin, t.ride) then { station := s, answer := .settled, charge := none }
  else if s.time.clockValid ∧ 2 ≤ s.freeSlots then
    match s.fares.resolve t.tariff with
    | some (plan, substituted) => s.chargeRide t bike d returnTime plan substituted
    | none => keep
  else keep

/-! ## INSERTED (R40) -/

/-- The dock takes the reported bike: DOCKED, docked now, verified (R40). -/
def State.dockBike (d : DockNo) (bike : Nat) (s : State) : State :=
  s.putDock d ⟨.docked { bike := bike, since := s.stamp, tokenHeld := false }, true⟩

/-- The dock's token-held flag is written and its state left as it stands. -/
def State.setToken (d : DockNo) (flag : Bool) (s : State) : State :=
  s.putDockState d ((s.dock d).state.withToken flag)

/-- What an insertion with a token comes to: the token is settled at the clock value of the event, and a token kept
leaves its dock token-held. -/
def State.settleReturn (t : Token) (d : DockNo) (bike : Nat) (s : State) : Settlement :=
  let r := (s.dockBike d bike).settle t bike d s.time.clock
  match r.answer with
  | .keepToken => { r with station := r.station.setToken d true }
  | .plain => r
  | .settled => r

/-- The answer to an accepted insertion or token report (R40, R46). -/
def returnedAnswer (d : DockNo) (t : Token) (r : Settlement) : AcceptBody :=
  .returned r.answer d (some (t.origin, t.ride)) r.charge

/-- INSERTED, by the state the report finds and by its token. A settlement goes before what a van job makes of the
insertion (log 18). -/
def ownInserted (req : ReturnReq) (s : State) : Handled :=
  let d := req.dock
  match (s.dock d).state with
  | .empty =>
    match req.token with
    | none => accept (.returned .plain d none none) ((s.dockBike d req.bike).countStray d req.bike)
    | some t =>
      let r := s.settleReturn t d req.bike
      accept (returnedAnswer d t r) r.station
  | .vanReserved number =>
    match req.token with
    | none => accept (.returned .plain d none none) ((s.dockBike d req.bike).countDelivery number d req.bike)
    | some t =>
      let r := s.settleReturn t d req.bike
      accept (returnedAnswer d t r) (r.station.remark number d)
  | .docked _ => { station := s.dockFault .sensor d, reply := .refuse .dockState none, acts := true }
  | .absent => refuse .dockState s
  | .held _ _ => refuse .dockState s
  | .unlocking _ _ => refuse .dockState s
  | .vanHeld _ _ => refuse .dockState s
  | .outOfService _ _ => refuse .dockState s

/-! ## TOKEN_REPORT (R46) -/

/-- The wait for a token report ends. -/
def State.endWait (s : State) : State := { s with rail := { s.rail with awaited := none } }

/-- The token-held flag is cleared and the dock becomes verified. -/
def State.clearToken (d : DockNo) (s : State) : State :=
  s.putDock d ⟨(s.dock d).state.withToken false, true⟩

/-- The return time of a token report: the dock's docked-since time, or the clock value of the report where that time
is 0 (R46). -/
def State.reportTime (s : State) (b : DockedBike) : Nat := if b.since = 0 then s.time.clock else b.since

/-- TOKEN_REPORT: accepted only for the dock whose READ_TOKEN awaits its report; the recorded bike number is used. A
waiting dock that records no bike is a state no run reaches (log 24). -/
def ownTokenReport (req : ReturnReq) (s : State) : Handled :=
  let d := req.dock
  if s.rail.awaited = some d then
    match (s.dock d).state.bike? with
    | none => refuse .notFound s
    | some b =>
      match req.token with
      | some t =>
        let r := s.endWait.settle t b.bike d (s.reportTime b)
        match r.answer with
        | .settled => accept (returnedAnswer d t r) (r.station.clearToken d)
        | .keepToken => accept (returnedAnswer d t r) r.station
        | .plain => accept (returnedAnswer d t r) r.station
      | none =>
        accept (.returned .plain d none none) ((s.endWait.clearToken d).internalReport b.bike d .tag)
  else refuse .notFound s

/-! ## The commands -/

/-- INSERTED. -/
def execInserted (port : Port) (bytes : List Byte) (s : State) : Host.Outcome State Fault Refusal :=
  .next (serve .inserted port bytes readReturn ownInserted s)

/-- TOKEN_REPORT. -/
def execTokenReport (port : Port) (bytes : List Byte) (s : State) : Host.Outcome State Fault Refusal :=
  .next (serve .tokenReport port bytes readReturn ownTokenReport s)

/-- RESETTLEMENT_SWEEP (R45): where every condition holds, the sweep chooses its dock, moves the cursor and appends
READ_TOKEN; otherwise, and while the part is held, nothing happens. -/
def execResettlementSweep (s : State) : Host.Outcome State Fault Refusal :=
  if s.held then .next s else .next ((s.sweep).reckonLines s)

end Sys2Proof.Machine
end

