-- ==== Sys2Proof/Machine/Cards.lean ====
section
/-! DEFINITION. The card table controller's own requests: loading with its merge, dropping, topping up, inspecting. -/

namespace Sys2Proof.Machine

/-! ## The merge of a load (R76 to R78) -/

/-- The held records that a merge reads: those that name the card and bear a number above A. -/
def State.replayed (s : State) (card through : Nat) : List Record :=
  s.journal.records.filter (fun r => r.names card && decide (through < r.seq))

/-- The money a record adds to a merged balance (R76). -/
def RecordBody.money : RecordBody → Int
  | .rideEnd f => if f.flags.deferred then 0 else f.delta
  | .topup _ amount _ _ => amount
  | .release .. => 0
  | .fault .. => 0
  | .faultClear .. => 0
  | .jobEnd _ => 0
  | .clockSet .. => 0

/-- The range of a balance (R72). -/
def clampBalance (n : Int) : Int := max Config.balanceFloor (min Config.balanceCeiling n)

/-- The merged balance: one record at a time, clamped after each addition (R76). -/
def mergeBalance (start : Int) (records : List Record) : Int :=
  records.foldl (fun running r => clampBalance (running + r.body.money)) start

/-- What a record adds to the charged-today figure of a day (R77). -/
def RecordBody.chargedOn (day : Int) : RecordBody → Nat
  | .rideEnd f => if !f.flags.deferred && decide (f.returnDay = day) then f.baseCharged else 0
  | .topup .. => 0
  | .release .. => 0
  | .fault .. => 0
  | .faultClear .. => 0
  | .jobEnd _ => 0
  | .clockSet .. => 0

/-- The merged charged-today figure and its day (R77). -/
def State.mergeCharged (s : State) (req : LoadReq) (records : List Record) : Nat × Int :=
  if s.time.clockValid then
    let start := if req.day = s.today then req.charged else 0
    (min Config.chargedCeiling (start + (records.map (fun r => r.body.chargedOn s.today)).sum), s.today)
  else (req.charged, req.day)

/-- The state of a merged entry (R78). -/
def State.mergeState (s : State) (req : LoadReq) (records : List Record) (balance : Int) : CardState :=
  if records.any (fun r => r.body.money != 0) then
    match s.fares.resolve req.tariff with
    | none => req.state
    | some (plan, _) =>
      match req.state with
      | .active => if balance < -(plan.creditFloor : Int) then .debt else .active
      | .debt => if 0 ≤ balance then .active else .debt
      | .barred => .barred
      | .lost => .lost
  else req.state

/-- The entry an accepted load leaves, over what the station keeps of a replaced one (R75). -/
def State.loadedEntry (s : State) (req : LoadReq) (old : Option CardEntry) : CardEntry :=
  let records := s.replayed req.card req.through
  let balance := mergeBalance req.balance records
  let charged := s.mergeCharged req records
  { number := req.card
    state := s.mergeState req records balance
    kind := req.kind
    tariff := req.tariff
    discount := req.discount
    balance := balance
    charged := charged.1
    day := charged.2
    provisional := false
    refCount := (match old with
      | some c => c.refCount
      | none => namingCount req.card s.journal.records)
    inFlight := old.bind (fun c => c.inFlight)
    holdDock := old.bind (fun c => c.holdDock)
    lastUse := s.stamp }

/-- The answer to an accepted load (R78). -/
def State.loadView (s : State) (req : LoadReq) (e : CardEntry) (created : Bool) (evicted : Option Nat) : LoadView :=
  { created := created, evicted := evicted, balance := e.balance, charged := e.charged, day := e.day,
    state := e.state, replayed := (s.replayed req.card req.through).length, refCount := e.refCount }

/-- CARD_LOAD, in the order of R74. -/
def ownCardLoad (req : LoadReq) (s : State) : Handled :=
  if req.through < s.journal.marker then refuse .staleLoad s
  else if s.journal.lastSeq < req.through then refuse .futureLoad s
  else
    match s.card req.card with
    | some old =>
      let e := s.loadedEntry req (some old)
      accept (.cardLoaded (s.loadView req e false none)) (s.modifyCard req.card (fun _ => e))
    | none =>
      match roomForCard s.cards with
      | none => refuse .tableFull s
      | some room =>
        let e := s.loadedEntry req none
        accept (.cardLoaded (s.loadView req e true room.2)) { s with cards := insertCard e room.1 }

/-! ## CARD_DROP, TOPUP, CARD_STATUS (R80, R81, R83) -/

/-- CARD_DROP. -/
def ownCardDrop (card : Nat) (s : State) : Handled :=
  match s.card card with
  | none => refuse .notFound s
  | some c =>
    if c.pinned then
      { station := s
        reply := .refuse .cardBusy
          (some ⟨decide (0 < c.refCount), c.inFlight.isSome, c.holdDock.isSome⟩)
        acts := false }
    else accept .nothing { s with cards := eraseCard card s.cards }

/-- The state a top-up leaves (R81). -/
def toppedState (c : CardEntry) (balance : Int) : CardState :=
  if c.state = .debt ∧ 0 ≤ balance then .active else c.state

/-- TOPUP, in the order of R81. -/
def ownTopup (req : TopupReq) (s : State) : Handled :=
  if !s.time.clockValid then refuse .clockUnset s
  else
    match s.card req.card with
    | none => refuse .unknownCard s
    | some c =>
      if c.provisional then refuse .unknownCard s
      else if c.state = .barred ∨ c.state = .lost then refuse .cardBlocked s
      else if s.journal.mode = .reserve then refuse .journalReserve s
      else if Config.balanceCeiling < c.balance + req.amount then refuse .outOfRange s
      else
        let balance := c.balance + req.amount
        let state := toppedState c balance
        accept (.toppedUp balance state)
          (State.appendIfRoom (.topup req.card req.amount balance state)
            (s.modifyCard req.card
              (fun x => { x with balance := balance, state := state, lastUse := s.stamp })))

/-- CARD_STATUS. -/
def ownCardStatus (query : Option Nat) (s : State) : Handled :=
  match query with
  | some n =>
    match s.card n with
    | none => refuse .unknownCard s
    | some c =>
      let valid := s.time.clockValid
      accept (.card
        { entry := c
          passValid := if valid then some (s.onPass c) else none
          chargedToday := if valid then some (c.basis.chargedOn s.today) else none }) s
  | none =>
    accept (.cardTotals
      { entries := s.cards.length
        provisional := s.provisionalCount
        pinned := s.cards.countP CardEntry.pinned
        active := s.cards.countP (fun c => decide (c.state = .active))
        debt := s.cards.countP (fun c => decide (c.state = .debt))
        barred := s.cards.countP (fun c => decide (c.state = .barred))
        lost := s.cards.countP (fun c => decide (c.state = .lost)) }) s

/-! ## The commands -/

/-- CARD_LOAD. -/
def execCardLoad (port : Port) (bytes : List Byte) (s : State) : Host.Outcome State Fault Refusal :=
  .next (serve .cardLoad port bytes readLoad ownCardLoad s)

/-- CARD_DROP. -/
def execCardDrop (port : Port) (bytes : List Byte) (s : State) : Host.Outcome State Fault Refusal :=
  .next (serve .cardDrop port bytes readCard ownCardDrop s)

/-- TOPUP. -/
def execTopup (port : Port) (bytes : List Byte) (s : State) : Host.Outcome State Fault Refusal :=
  .next (serve .topup port bytes readTopup ownTopup s)

/-- CARD_STATUS. -/
def execCardStatus (port : Port) (bytes : List Byte) (s : State) : Host.Outcome State Fault Refusal :=
  .next (serve .cardStatus port bytes readOptCard ownCardStatus s)

end Sys2Proof.Machine
end

