-- ==== Sys2Proof/Machine/Journals.lean ====
section
/-! DEFINITION. The journal controller's own requests: reading and releasing. -/

namespace Sys2Proof.Machine

/-! ## JOURNAL_READ (R142, R143) -/

/-- The bytes of an answer frame that the records of a read may fill: 512 less the 6 of the header and the 21 that open
a read answer carrying records (R186). -/
def recordRoom : Nat := Config.frameLimit - 27

/-- The records that fit: whole and in order, up to the first that would pass the limit (R143). -/
def fitting : Nat → List Record → List Record
  | _, [] => []
  | room, r :: rs => if r.bytes.length ≤ room then r :: fitting (room - r.bytes.length) rs else []

/-- The held records from the one a read begins at; nothing where its from-sequence lies outside the held range
(R142). -/
def Journal.from (j : Journal) : Option Nat → Option (List Record)
  | none => some j.records
  | some n => if j.records.any (fun r => r.seq == n) then some (j.records.dropWhile (fun r => r.seq != n)) else none

/-- JOURNAL_READ: it changes nothing. -/
def ownJournalRead (req : ReadReq) (s : State) : Handled :=
  match s.journal.from req.start with
  | none => refuse .outOfRange s
  | some records =>
    let carried := fitting recordRoom (records.take req.limit)
    accept (.journal carried s.journal.lastSeq s.journal.marker s.journal.records.length
      (decide (carried.length < records.length))) s

/-! ## JOURNAL_RELEASE (R144, R145) -/

/-- The records a release frees, and the records it leaves (R144). -/
def Journal.freed (j : Journal) (through : Nat) : List Record := j.records.filter (fun r => decide (r.seq ≤ through))

def Journal.kept (j : Journal) (through : Nat) : List Record := j.records.filter (fun r => decide (through < r.seq))

/-- The slot at which the run of held slots begins after some slots at its oldest end are freed (R129). -/
def advanceSlot (first slots : Nat) : Nat := (first - 1 + slots) % Config.ringSlots + 1

/-- Records are freed: their slots leave the held run, the reference counts of the cards they name fall, and the marker
moves (R144). -/
def State.release (through : Nat) (s : State) : State :=
  let gone := s.journal.freed through
  { s with
    journal :=
      { s.journal with
        records := s.journal.kept through
        firstSlot := advanceSlot s.journal.firstSlot (slotsOf gone)
        marker := through }
    cards := s.cards.map (fun c => { c with refCount := c.refCount - namingCount c.number gone }) }

/-- JOURNAL_RELEASE, judged against the journal as it stands. -/
def ownJournalRelease (through : Nat) (s : State) : Handled :=
  if s.journal.lastSeq < through then refuse .outOfRange s
  else if through ≤ s.journal.marker then
    accept (.journalReleased 0 0 s.journal.marker s.freeSlots s.journal.mode) s
  else
    let gone := s.journal.freed through
    let s' := s.release through
    accept (.journalReleased gone.length (slotsOf gone) through s'.freeSlots (modeOfFree s'.freeSlots)) s'

/-! ## The commands -/

/-- JOURNAL_READ. -/
def execJournalRead (port : Port) (bytes : List Byte) (s : State) : Host.Outcome State Fault Refusal :=
  .next (serve .journalRead port bytes readRead ownJournalRead s)

/-- JOURNAL_RELEASE. -/
def execJournalRelease (port : Port) (bytes : List Byte) (s : State) : Host.Outcome State Fault Refusal :=
  .next (serve .journalRelease port bytes readThrough ownJournalRelease s)

end Sys2Proof.Machine
end

