-- ==== Sys2Proof/Machine/Clock.lean ====
section
/-! DEFINITION. The station timebase: the tick and the countdowns it drives, CLOCK_SET, SET_MODE, CONFIGURE and
STATION_STATUS. -/

namespace Sys2Proof.Machine

/-! ## What a tick does at each holder (R10, R123, R150, R153) -/

/-- The clock takes a tick: a valid clock counts one second, and at its greatest value it stays and becomes invalid
(R149). -/
def State.countSecond (s : State) : State :=
  if s.time.clockValid then
    if Config.clockMax ≤ s.time.clock then { s with time := { s.time with clockValid := false } }
    else { s with time := { s.time with clock := s.time.clock + 1 } }
  else s

/-- A dock's countdown takes a tick: it falls by one, and at 0 its hold or release expires (R10). -/
def State.tickDock (s : State) (d : DockNo) : State :=
  match (s.dock d).state with
  | .held b h =>
    if h.remaining ≤ 1 then s.expireHold d b h
    else s.putDockState d (.held b { h with remaining := h.remaining - 1 })
  | .unlocking b r =>
    if r.window ≤ 1 then s.expireRelease d b r
    else s.putDockState d (.unlocking b { r with window := r.window - 1 })
  | .absent | .empty | .docked _ | .vanHeld _ _ | .vanReserved _ | .outOfService _ _ => s

/-- The dock table controller takes a tick, in ascending dock number (R10). -/
def State.tickDocks (s : State) : State := allDocks.foldl State.tickDock s

/-- A job's van window takes a tick (R123). -/
def State.tickJob (s : State) (slot : SlotNo) : State :=
  match s.job slot with
  | none => s
  | some j =>
    match j.window with
    | none => s
    | some w => if w ≤ 1 then s.expireJob slot j else s.setJob slot (some { j with window := some (w - 1) })

/-- The van job controller takes a tick, in job-slot order (R123). -/
def State.tickJobs (s : State) : State := allSlots.foldl State.tickJob s

/-- An ONLINE link becomes OFFLINE with LINK_CHANGED at the terminal and service ports; an OFFLINE one stays (R153). -/
def State.loseLink (s : State) : State :=
  match s.time.link with
  | .online =>
    (State.notify .terminal .linkChanged { s with time := { s.time with link := .offline } }).notify
      .service .linkChanged
  | .offline => s

/-- The stale timer takes a tick; at 0 it stays until its next restart (R153). -/
def State.tickStale (s : State) : State :=
  let t := s.time.staleTimer
  let s' := { s with time := { s.time with staleTimer := t - 1 } }
  if t = 1 then s'.loseLink else s'

/-! ## Handing a tick out (R150; log 1) -/

def HandedTicks.get (h : HandedTicks) : TickHolder → Bool
  | .docks => h.docks
  | .vans => h.vans
  | .fares => h.fares
  | .stale => h.stale

def HandedTicks.clear (h : HandedTicks) : TickHolder → HandedTicks
  | .docks => { h with docks := false }
  | .vans => { h with vans := false }
  | .fares => { h with fares := false }
  | .stale => { h with stale := false }

def noneHanded : HandedTicks := ⟨false, false, false, false⟩

/-- What a holder does with a tick. -/
def State.holderWork (holder : TickHolder) (s : State) : State :=
  match holder with
  | .docks => s.tickDocks
  | .vans => s.tickJobs
  | .fares => s.switchTariff
  | .stale => s.tickStale

/-- The tick handed out once the clock has counted: to the three holders of countdowns whether or not the clock is valid
(R150), and to the fare unit only where it is, since a tick taken while it is invalid makes no comparison (R51). -/
def State.handTick (s : State) : State :=
  { s with time := { s.time with handed := ⟨true, true, s.time.clockValid, true⟩ } }

/-- A holder takes the tick handed to it, as an event of its own; a holder to which none is handed takes nothing. The fare
unit compares the staged set that stands as it takes its tick, one staged after the tick was handed included: that this tick
is "the next tick" of R51's table is the model's choice (DESIGN CHOICE, log 35). -/
def State.takeTick (s : State) (holder : TickHolder) : State :=
  if s.time.handed.get holder then
    (State.holderWork holder { s with time := { s.time with handed := s.time.handed.clear holder } }).closeEvent s
  else s

/-- The four holders in the order in which they take a tick that the next one finds untaken (log 1). -/
def allHolders : List TickHolder := [.docks, .vans, .fares, .stale]

/-- TICK (R149, R150): ticks still handed out are taken; in the timebase's own event the clock counts and a tick is
handed to the holders, and the sweep acts where its conditions hold (R45); then the named holders take theirs in the
order named (log 1). While the part is held only the clock counts (R162; log 9). -/
def execTick (takers : List TickHolder) (s : State) : Host.Outcome State Fault Refusal :=
  if s.held then .next s.countSecond
  else
    let s1 := allHolders.foldl State.takeTick s
    .next (takers.foldl State.takeTick (s1.countSecond.handTick.closeEvent s1))

/-! ## The expiries as steps of their own (log 2) -/

/-- A countdown that a tick at hand, or no tick at all, finds at its end. -/
def countdownDue (handed : Bool) (left : Nat) : Bool := decide (left = 0) || (handed && decide (left = 1))

/-- A hold of this dock is due (R37). -/
def State.holdDue (s : State) (d : DockNo) : Bool :=
  match (s.dock d).state with
  | .held _ h => countdownDue s.time.handed.docks h.remaining
  | .absent | .empty | .docked _ | .unlocking _ _ | .vanHeld _ _ | .vanReserved _ | .outOfService _ _ => false

/-- A release of this dock is due (R32). -/
def State.windowDue (s : State) (d : DockNo) : Bool :=
  match (s.dock d).state with
  | .unlocking _ r => countdownDue s.time.handed.docks r.window
  | .absent | .empty | .docked _ | .held _ _ | .vanHeld _ _ | .vanReserved _ | .outOfService _ _ => false

/-- The expiry of one dock's countdown: in the dock table controller's event of the tick handed to it, or, with the
countdown already at 0 and no tick at hand, alone. -/
def State.dockExpiry (s : State) (d : DockNo) : State :=
  if s.time.handed.docks then s.takeTick .docks else (s.tickDock d).closeEvent s

/-- HOLD_EXPIRY (R37): where the hold is due it expires; otherwise nothing happens. -/
def execHoldExpiry (dock : DockNo) (s : State) : Host.Outcome State Fault Refusal :=
  if !s.held && s.holdDue dock then .next (s.dockExpiry dock) else .next s

/-- UNLOCK_WINDOW_EXPIRY (R32): where the window is due the release lapses; otherwise nothing happens. -/
def execUnlockWindowExpiry (dock : DockNo) (s : State) : Host.Outcome State Fault Refusal :=
  if !s.held && s.windowDue dock then .next (s.dockExpiry dock) else .next s

/-- A job's van window is due (R123). -/
def State.jobDue (s : State) (slot : SlotNo) : Bool :=
  match s.job slot with
  | none => false
  | some j =>
    match j.window with
    | none => false
    | some w => countdownDue s.time.handed.vans w

/-- VAN_WINDOW_EXPIRY (R123): where the window is due the job ends LATE; otherwise nothing happens. -/
def execVanWindowExpiry (slot : SlotNo) (s : State) : Host.Outcome State Fault Refusal :=
  if !s.held && s.jobDue slot then
    .next (if s.time.handed.vans then s.takeTick .vans else (s.tickJob slot).closeEvent s)
  else .next s

/-- STALE_TIMER_EXPIRY (R153): where the stale timer is due an ONLINE link becomes OFFLINE; otherwise nothing
happens. -/
def execStaleTimerExpiry (s : State) : Host.Outcome State Fault Refusal :=
  if !s.held && countdownDue s.time.handed.stale s.time.staleTimer then
    .next (if s.time.staleTimer = 0 then s.loseLink.closeEvent s else s.takeTick .stale)
  else .next s

/-- TARIFF_SWITCH (R51): where a tick at hand finds the staged set due, one staged since the tick was handed included
(DESIGN CHOICE, log 35), it is switched in; otherwise nothing happens. -/
def execTariffSwitch (s : State) : Host.Outcome State Fault Refusal :=
  if !s.held && s.time.handed.fares && s.dueSet.isSome then .next (s.takeTick .fares) else .next s

/-! ## CLOCK_SET and SET_MODE (R151, R155) -/

/-- CLOCK_SET. -/
def ownClockSet (new : Nat) (s : State) : Handled :=
  let old := if s.time.clockValid then some s.time.clock else none
  accept (.clockSet old new)
    (State.appendIfRoom (.clockSet old new) { s with time := { s.time with clock := new, clockValid := true } })

/-- SET_MODE: naming the mode in force changes nothing. -/
def ownSetMode (mode : StationMode) (s : State) : Handled :=
  if s.time.stationMode = mode then accept (.modeSet mode mode) s
  else accept (.modeSet s.time.stationMode mode) { s with time := { s.time with stationMode := mode } }

/-! ## CONFIGURE (R157 to R160) -/

/-- The configuration a request leaves: each item it carries, written (R157, R159). -/
def ConfigureReq.apply (req : ConfigureReq) (c : StationConfig) : StationConfig :=
  { configured := true
    station := req.station.or c.station
    segments := req.segments.getD c.segments
    unlockWindow := req.unlockWindow.getD c.unlockWindow
    holdDuration := req.holdDuration.getD c.holdDuration
    vanWindow := req.vanWindow.getD c.vanWindow
    stalePeriod := req.stalePeriod.getD c.stalePeriod
    threshold := req.threshold.getD c.threshold
    provisionalReleases := req.provisionalReleases.getD c.provisionalReleases
    dayOffset := req.dayOffset.getD c.dayOffset }

/-- The station is not quiet: it is OPEN, or a job is open, or a dock is UNLOCKING (R157, check 2). -/
def State.busy (s : State) : Bool :=
  decide (s.time.stationMode = .open)
    || allSlots.any (fun i => match s.job i with
      | some j => j.isOpen
      | none => false)
    || allDocks.any (fun d => (s.dock d).state.isUnlocking)

/-- A dock beyond a count stands in a state other than EMPTY or ABSENT (R157, check 3). -/
def State.occupiedBeyond (s : State) (count : Nat) : Bool :=
  allDocks.any (fun d => decide (count ≤ d.val) && !(s.dock d).state.isEmpty && !(s.dock d).state.isAbsent)

/-- The checks of R157 in their order. -/
def State.judgeConfigure (s : State) (req : ConfigureReq) : Option RefusalReason :=
  let c := s.time.config
  let changed := match req.segments with
    | some sizes => decide (sizes ≠ c.segments)
    | none => false
  let count := (req.apply c).dockCount
  if !c.configured && (req.station.isNone || req.segments.isNone) then some .outOfRange
  else if changed && s.busy then some .stationBusy
  else if changed && decide (count < c.dockCount) && s.occupiedBeyond count then some .dockState
  else none

/-- The docks after a change of the dock count (R159, R160): docks added are EMPTY and unverified, docks removed are
ABSENT and unverified, docks kept keep every field. -/
def resizeDock (before after : Nat) (d : DockNo) (x : Dock) : Dock :=
  if after ≤ d.val then ⟨.absent, false⟩
  else if before ≤ d.val then ⟨.empty, false⟩
  else x

/-- The dock table and the queue after a change of the segment sizes (R159, R160). -/
def Rail.resize (before after : Nat) (r : Rail) : Rail :=
  let gone := allDocks.filter (fun d => decide (after ≤ d.val) && decide (d.val < before))
  { r with
    docks := mapDocks (resizeDock before after) r.docks
    queue := gone.foldl (fun q d => q.filterMap (Command.withoutRelock d)) r.queue
    cursor := (match r.cursor with
      | some d => if after ≤ d.val then none else some d
      | none => none) }

/-- An accepted CONFIGURE: its items are written, a change of the segments resizes the dock table, and docks created
ask for a census. -/
def State.configure (req : ConfigureReq) (s : State) : State :=
  let c := s.time.config
  let c' := req.apply c
  let s1 := { s with time := { s.time with config := c' } }
  if c'.segments = c.segments then s1
  else
    let s2 := { s1 with rail := s1.rail.resize c.dockCount c'.dockCount }
    if c.dockCount < c'.dockCount then s2.notify .rail .censusWanted else s2

/-- CONFIGURE. -/
def ownConfigure (req : ConfigureReq) (s : State) : Handled :=
  match s.judgeConfigure req with
  | some reason => refuse reason s
  | none => accept (.configured (req.apply s.time.config)) (s.configure req)

/-! ## STATION_STATUS (R161) -/

def State.dockCounts (s : State) : DockCounts :=
  { empty := s.countDocks (fun x => x.state.isEmpty)
    docked := s.countDocks (fun x => x.state.isDocked)
    held := s.countDocks (fun x => x.state.isHeld)
    unlocking := s.countDocks (fun x => x.state.isUnlocking)
    vanHeld := s.countDocks (fun x => x.state.isVanHeld)
    vanReserved := s.countDocks (fun x => x.state.isVanReserved)
    outOfService := s.countDocks (fun x => x.state.isOutOfService) }

/-- Which tariff indices are defined, index k in bit k. -/
def Fares.defined (f : Fares) : BitVec 8 :=
  BitVec.ofNat 8 (((List.finRange 8).map (fun k => flagBit k.val (f.active[k]).isSome)).sum)

def State.stationView (s : State) : StationView :=
  { clockValid := s.time.clockValid
    stationMode := s.time.stationMode
    link := s.time.link
    staleTimer := s.time.staleTimer
    clock := s.time.clock
    today := if s.time.clockValid then some s.today else none
    config := s.time.config
    mode := s.journal.mode
    freeSlots := s.freeSlots
    heldRecords := s.journal.records.length
    heldSlots := s.journal.heldSlots
    reservedSlots := s.journal.reserved
    lastSeq := s.journal.lastSeq
    marker := s.journal.marker
    docks := s.dockCounts
    tokenHeld := s.countDocks (fun x => x.state.tokenHeld)
    unverified := s.countDocks (fun x => !x.state.isAbsent && !x.verified)
    holdCount := s.holdCount
    queueLength := s.rail.queue.length
    fetchedOpen := s.rail.opens.length
    readQueued := s.rail.readQueued
    readAwaited := s.rail.awaited.isSome
    openJobs := allSlots.countP (fun i => match s.job i with
      | some j => j.isOpen
      | none => false)
    endedJobs := allSlots.countP (fun i => match s.job i with
      | some j => !j.isOpen
      | none => false)
    freeJobSlots := s.freeJobSlots
    cards := s.cards.length
    provisional := s.provisionalCount
    pinned := s.cards.countP CardEntry.pinned
    faults := s.faults.length
    quarantined := s.faults.countP (fun e => e.quarantined)
    defined := s.fares.defined
    staged := s.fares.staged.map (fun t => (t.effective, t.entries.length)) }

/-- STATION_STATUS. -/
def ownStationStatus (_ : Unit) (s : State) : Handled := accept (.station s.stationView) s

/-! ## The commands -/

/-- CLOCK_SET. -/
def execClockSet (port : Port) (bytes : List Byte) (s : State) : Host.Outcome State Fault Refusal :=
  .next (serve .clockSet port bytes readTime ownClockSet s)

/-- SET_MODE. -/
def execSetMode (port : Port) (bytes : List Byte) (s : State) : Host.Outcome State Fault Refusal :=
  .next (serve .setMode port bytes readMode ownSetMode s)

/-- CONFIGURE. -/
def execConfigure (port : Port) (bytes : List Byte) (s : State) : Host.Outcome State Fault Refusal :=
  .next (serve .configure port bytes readConfigure ownConfigure s)

/-- STATION_STATUS. -/
def execStationStatus (port : Port) (bytes : List Byte) (s : State) : Host.Outcome State Fault Refusal :=
  .next (serve .stationStatus port bytes readEmpty ownStationStatus s)

end Sys2Proof.Machine
end

