-- ==== Sys2Proof/Machine/Resets.lean ====
section
/-! DEFINITION. The hold, the resets that leave it, and FACTORY_CLEAR (R162 to R164, R177, R178, R184). -/

namespace Sys2Proof.Machine

/-! ## The ports -/

def mapPorts (f : PortUnit → PortUnit) (u : PortUnits) : PortUnits :=
  { terminal := f u.terminal, rail := f u.rail, service := f u.service, uplink := f u.uplink }

/-- A port unit right after a reset or a FACTORY_CLEAR: its slot EMPTY, the given kinds pending, all sixteen enabled,
its line asserted (R177, R178, R184). -/
def PortUnit.afresh (pendingSet : NoticeSet) (u : PortUnit) : PortUnit :=
  { u with slot := none, pendingSet := pendingSet, enableSet := allNotices, attention := true }

/-- A transfer whose select is still asserted as the hold ends stays SPOILED; any other port is QUIET (R177). -/
def PortUnit.settleTransfer (u : PortUnit) : PortUnit :=
  { u with transfer := if u.transfer = .spoiled then .spoiled else .quiet }

/-! ## The hold (R162, R177, R180) -/

/-- RESET_HOLD: the input that holds the part is asserted, the transfers under way are SPOILED, every attention line is
released, and ticks handed out and not yet taken are lost (R162, R177, R180; log 10). -/
def execResetHold (cause : HoldCause) (underWay : List Port) (s : State) : Host.Outcome State Fault Refusal :=
  let time := match cause with
    | .resetInput => { s.time with resetInput := true, handed := noneHanded }
    | .mainSupply => { s.time with mainLow := true, handed := noneHanded }
  let s1 := underWay.foldl State.spoil { s with time := time }
  .next { s1 with ports := mapPorts (fun u => { u with attention := false }) s1.ports }

/-- RETENTION_LOSS (R162): while the part is held the retention flag is cleared; out of the hold there is no such event
(log 8). -/
def execRetentionLoss (s : State) : Host.Outcome State Fault Refusal :=
  if s.held then .next { s with time := { s.time with retention := false } } else .next s

/-! ## The warm reset (R23, R47, R84, R101, R128, R148, R163, R177, R184) -/

/-- What the dock table's own reset makes of an entry (R23). -/
def warmDock (x : Dock) : Dock :=
  { verified := false
    state :=
      match x.state with
      | .unlocking b _ => .docked b
      | .held b _ => .docked b
      | .vanHeld b _ => .docked b
      | .vanReserved _ => .empty
      | .absent => .absent
      | .empty => .empty
      | .docked b => .docked b
      | .outOfService b k => .outOfService b k }

/-- A warm reset ends an open job: its OPEN items become RETURNED, RESET and ABORTED are added, and its JOB_END goes into
its reservation (R128, R148). -/
def State.resetJob (s : State) (slot : SlotNo) : State :=
  match s.job slot with
  | none => s
  | some j =>
    if j.isOpen then
      let j' := j.returnItems
      s.appendReserved (reservationSize j.requested)
        (.jobEnd { j'.endRecord with conditions := { j'.conditions with aborted := true, reset := true } })
    else s

/-- The station's records after a warm reset, before the ports' sets are replaced. -/
def State.warmRecords (s : State) : State :=
  let s1 := s.unreserve (s.countDocks (fun x => x.state.isUnlocking))
  let s2 := allSlots.foldl State.resetJob s1
  let journal := { s2.journal with reserved := 0 }
  { s2 with
    rail :=
      { docks := mapDocks (fun _ x => warmDock x) s2.rail.docks
        queue := []
        opens := []
        awaited := none
        cursor := s2.rail.cursor }
    rides := { s2.rides with terminalOutcomes := [], uplinkOutcomes := [] }
    cards := s2.cards.map (fun c => { c with inFlight := none, holdDock := none })
    vans := { jobs := Vector.replicate 4 none, nextJob := s2.vans.nextJob, claims := Vector.replicate 8 none }
    journal := { journal with mode := modeOfFree journal.free }
    time :=
      { s2.time with
        link := .offline
        staleTimer := s2.time.config.stalePeriod
        retention := true
        resetInput := false
        mainLow := false
        handed := noneHanded } }

/-- The pending set of a port after a warm reset: RESET_SEEN, and at the rail port CENSUS_WANTED (R184). -/
def warmPending : Port → NoticeSet
  | .rail => noticeSetOf [.resetSeen, .censusWanted]
  | .terminal | .service | .uplink => noticeSetOf [.resetSeen]

/-- The ports after the hold ends. -/
def PortUnits.leaveHold (kinds : Port → NoticeSet) (u : PortUnits) : PortUnits :=
  { terminal := (u.terminal.afresh (kinds .terminal)).settleTransfer
    rail := (u.rail.afresh (kinds .rail)).settleTransfer
    service := (u.service.afresh (kinds .service)).settleTransfer
    uplink := (u.uplink.afresh (kinds .uplink)).settleTransfer }

/-- WARM_RESET: the part leaves the hold with the retention flag set; where it is not held, or the flag is clear, there is
no such event (log 8). The queue it leaves is empty and the cursor kept: the sweep does not act in this event (R23, R47;
log 4). -/
def execWarmReset (s : State) : Host.Outcome State Fault Refusal :=
  if s.held && s.time.retention then
    let r := s.warmRecords
    .next { r with ports := s.ports.leaveHold warmPending }
  else .next s

/-! ## The cold reset and FACTORY_CLEAR (R22, R47, R49, R84, R101, R128, R147, R163, R164, R178, R184) -/

/-- The pending set of every port after a cold reset and after FACTORY_CLEAR (R184). -/
def coldPending (_ : Port) : NoticeSet := noticeSetOf [.resetSeen]

/-- COLD_RESET: the part leaves the hold with the retention flag clear, and every record takes its cold-reset value; where
it is not held, or the flag is set, there is no such event (log 8). The commands that wait outside the part go on
waiting. -/
def execColdReset (s : State) : Host.Outcome State Fault Refusal :=
  if s.held && !s.time.retention then
    .next { State.reset with pending := s.pending, ports := s.ports.leaveHold coldPending }
  else .next s

/-- The station after a FACTORY_CLEAR: every record at its cold-reset value, but for the clock, its valid flag and the
retention flag (R163, R164); the ports as R178 and R184 give. -/
def State.factoryClear (s : State) : State :=
  { State.reset with
    pending := s.pending
    time :=
      { State.reset.time with
        clock := s.time.clock
        clockValid := s.time.clockValid
        retention := s.time.retention
        resetInput := s.time.resetInput
        mainLow := s.time.mainLow }
    ports := mapPorts (PortUnit.afresh (noticeSetOf [.resetSeen])) s.ports }

/-- FACTORY_CLEAR: no mode is reckoned and no sweep runs, since nothing but the sets of R184 stands after it (R147). -/
def ownFactoryClear (_ : Unit) (s : State) : Handled :=
  { station := s.factoryClear, reply := .accept (.cleared s.time.clock s.time.clockValid), acts := false }

/-- FACTORY_CLEAR. -/
def execFactoryClear (port : Port) (bytes : List Byte) (s : State) : Host.Outcome State Fault Refusal :=
  .next (serve .factoryClear port bytes readEmpty ownFactoryClear s)

end Sys2Proof.Machine
end

