-- ==== Sys2Proof/Machine/Dispatch.lean ====
section
/-! DEFINITION. The dispatch: one arm per command, each one direct call of the command's meaning. -/

namespace Sys2Proof.Machine

def exec (i : Instr) (s : State) : Host.Outcome State Fault Refusal :=
  match i with
  | .release port bytes => Sys2Proof.Machine.execRelease port bytes s
  | .hold port bytes => Sys2Proof.Machine.execHold port bytes s
  | .holdCancel port bytes => Sys2Proof.Machine.execHoldCancel port bytes s
  | .quote port bytes => Sys2Proof.Machine.execQuote port bytes s
  | .topup port bytes => Sys2Proof.Machine.execTopup port bytes s
  | .cardStatus port bytes => Sys2Proof.Machine.execCardStatus port bytes s
  | .reportFault port bytes => Sys2Proof.Machine.execReportFault port bytes s
  | .clearFault port bytes => Sys2Proof.Machine.execClearFault port bytes s
  | .dockRestore port bytes => Sys2Proof.Machine.execDockRestore port bytes s
  | .faultStatus port bytes => Sys2Proof.Machine.execFaultStatus port bytes s
  | .fetchCommand port bytes => Sys2Proof.Machine.execFetchCommand port bytes s
  | .inserted port bytes => Sys2Proof.Machine.execInserted port bytes s
  | .removed port bytes => Sys2Proof.Machine.execRemoved port bytes s
  | .lockJam port bytes => Sys2Proof.Machine.execLockJam port bytes s
  | .sensorFault port bytes => Sys2Proof.Machine.execSensorFault port bytes s
  | .census port bytes => Sys2Proof.Machine.execCensus port bytes s
  | .tokenReport port bytes => Sys2Proof.Machine.execTokenReport port bytes s
  | .startJob port bytes => Sys2Proof.Machine.execStartJob port bytes s
  | .jobStatus port bytes => Sys2Proof.Machine.execJobStatus port bytes s
  | .retireJob port bytes => Sys2Proof.Machine.execRetireJob port bytes s
  | .abortJob port bytes => Sys2Proof.Machine.execAbortJob port bytes s
  | .configure port bytes => Sys2Proof.Machine.execConfigure port bytes s
  | .clockSet port bytes => Sys2Proof.Machine.execClockSet port bytes s
  | .setMode port bytes => Sys2Proof.Machine.execSetMode port bytes s
  | .cardLoad port bytes => Sys2Proof.Machine.execCardLoad port bytes s
  | .cardDrop port bytes => Sys2Proof.Machine.execCardDrop port bytes s
  | .tariffStage port bytes => Sys2Proof.Machine.execTariffStage port bytes s
  | .journalRead port bytes => Sys2Proof.Machine.execJournalRead port bytes s
  | .journalRelease port bytes => Sys2Proof.Machine.execJournalRelease port bytes s
  | .factoryClear port bytes => Sys2Proof.Machine.execFactoryClear port bytes s
  | .dockStatus port bytes => Sys2Proof.Machine.execDockStatus port bytes s
  | .stationStatus port bytes => Sys2Proof.Machine.execStationStatus port bytes s
  | .readNotices port bytes => Sys2Proof.Machine.execReadNotices port bytes s
  | .setNoticeEnables port bytes => Sys2Proof.Machine.execSetNoticeEnables port bytes s
  | .unknownRequest port kind bytes => Sys2Proof.Machine.execUnknownRequest port kind bytes s
  | .answerRead port clocked => Sys2Proof.Machine.execAnswerRead port clocked s
  | .tick takers => Sys2Proof.Machine.execTick takers s
  | .holdExpiry dock => Sys2Proof.Machine.execHoldExpiry dock s
  | .unlockWindowExpiry dock => Sys2Proof.Machine.execUnlockWindowExpiry dock s
  | .vanWindowExpiry slot => Sys2Proof.Machine.execVanWindowExpiry slot s
  | .staleTimerExpiry => Sys2Proof.Machine.execStaleTimerExpiry s
  | .tariffSwitch => Sys2Proof.Machine.execTariffSwitch s
  | .resettlementSweep => Sys2Proof.Machine.execResettlementSweep s
  | .resetHold cause underWay => Sys2Proof.Machine.execResetHold cause underWay s
  | .retentionLoss => Sys2Proof.Machine.execRetentionLoss s
  | .warmReset => Sys2Proof.Machine.execWarmReset s
  | .coldReset => Sys2Proof.Machine.execColdReset s
  | .selectDuringHold port => Sys2Proof.Machine.execSelectDuringHold port s
  | .spoiledTransferEnd port => Sys2Proof.Machine.execSpoiledTransferEnd port s

end Sys2Proof.Machine
end

