-- ==== Sys2Proof/Machine/Step.lean ====
section
/-! DEFINITION. One step: the command at the front of the queue is taken. -/

namespace Sys2Proof.Machine

/-- One step takes the command at the front of the queue and runs it on the state with the queue's rest. With
no command waiting the part idles: nothing happens on its own (DESIGN CHOICE, assumption log 21). -/
def step (s : State) : Host.Outcome State Fault Refusal :=
  match s.pending with
  | [] => .next s
  | c :: cs => exec c { s with pending := cs }

/-- The state with the command that a word spells put at the front of its queue; no row of the table has bits, so
no word spells a command (assumption log 23). -/
def State.withFetchWord (s : State) (nbits w : Nat) : State :=
  match decodeTableWord nbits w with
  | some c => { s with pending := c :: s.pending }
  | none => s

end Sys2Proof.Machine
end

