-- ==== Sys2Proof/Safety.lean ====
section
/-! DEFINITION. What the statements speak of: a port that is ready for a request, and the invariants that every step
keeps, after the laws of the manual. -/

namespace Sys2Proof.Machine

/-! ## Ports -/

/-- A port ready to take a request: the part is not held, its transfer is not SPOILED and its answer slot is EMPTY
(R166, R170, R177). -/
def State.ready (s : State) (p : Port) : Prop :=
  s.held = false ∧ (s.port p).transfer ≠ .spoiled ∧ (s.port p).slot = none

/-- The answer that stands in a port's slot. -/
def State.answer (s : State) (p : Port) : Option Reply := (s.port p).slot.map (fun f => f.reply)

/-! ## The journal -/

/-- Law 12 (R133): the sequence numbers of the held records are consecutive and rise from the one after the marker, and
the next sequence number follows the newest. -/
def Journal.consecutive (j : Journal) : Prop :=
  j.records.map Record.seq = List.range' (j.marker + 1) j.records.length
    ∧ j.nextSeq = j.marker + 1 + j.records.length

/-- The journal mode is the one the free-slot count gives (R136). -/
def Journal.modeRight (j : Journal) : Prop := j.mode = modeOfFree j.free

/-- Law 7 (R60): a ride's charge is at most 60,000 cents, and no less than its base charged. -/
def RecordBody.chargeBounded : RecordBody → Prop
  | .rideEnd f => f.baseCharged ≤ f.charge ∧ f.charge ≤ Config.chargeCeiling
  | .release .. | .topup .. | .fault .. | .faultClear .. | .jobEnd _ | .clockSet .. => True

def Journal.chargesBounded (j : Journal) : Prop := ∀ r ∈ j.records, r.body.chargeBounded

/-! ## Cards -/

/-- No card number has two entries, the entries stand in ascending card number, and there are at most 1,024 (R65). -/
def State.cardsOrdered (s : State) : Prop :=
  s.cards.Pairwise (fun a b => a.number < b.number) ∧ s.cards.length ≤ Config.cardPlaces

/-- Law 6 (R72): every balance lies between −100,000 and +1,000,000 cents. -/
def State.balancesInRange (s : State) : Prop :=
  ∀ c ∈ s.cards, Config.balanceFloor ≤ c.balance ∧ c.balance ≤ Config.balanceCeiling

/-- Law 4 (R68): every reference count is the number of held records that name the card. -/
def State.countsAgree (s : State) : Prop :=
  ∀ c ∈ s.cards, c.refCount = namingCount c.number s.journal.records

/-! ## Faults -/

/-- No bike has two entries, the entries stand in ascending bike number, there are at most 128, a score is at most 15 and
a last-reports list has 1 to 4 entries (R85). -/
def State.faultsOrdered (s : State) : Prop :=
  s.faults.Pairwise (fun a b => a.bike < b.bike) ∧ s.faults.length ≤ Config.faultPlaces
    ∧ ∀ e ∈ s.faults, e.score ≤ Config.scoreLimit ∧ 1 ≤ e.reports.length ∧ e.reports.length ≤ Config.reportPlaces

/-! ## Docks and the rail -/

/-- Law 2 (R6): the queue length plus the fetched-open count never exceeds 24. -/
def State.railBounded (s : State) : Prop := s.rail.queue.length + s.rail.opens.length ≤ Config.railPlaces

/-- R1: a dock is ABSENT exactly when it lies beyond N, and is then unverified. -/
def State.docksPlaced (s : State) : Prop :=
  ∀ d : DockNo, ((s.dock d).state.isAbsent = true ↔ s.time.config.dockCount ≤ d.val)
    ∧ ((s.dock d).state.isAbsent = true → (s.dock d).verified = false)

/-- The card of the release on a dock. -/
def DockState.releaseCard? : DockState → Option Nat
  | .unlocking _ r => some r.card
  | .absent | .empty | .docked _ | .held _ _ | .vanHeld _ _ | .vanReserved _ | .outOfService _ _ => none

/-- The card of the hold on a dock. -/
def DockState.holdCard? : DockState → Option Nat
  | .held _ h => some h.card
  | .absent | .empty | .docked _ | .unlocking _ _ | .vanHeld _ _ | .vanReserved _ | .outOfService _ _ => none

/-- Law 3 (R30): a dock is UNLOCKING for a card exactly when the card's entry names it as its in-flight dock. -/
def State.releasesLinked (s : State) : Prop :=
  ∀ (d : DockNo) (n : Nat),
    (s.dock d).state.releaseCard? = some n ↔ ∃ c ∈ s.cards, c.number = n ∧ c.inFlight = some d

/-- Law 11 (R36) and R69: a dock is HELD for a card exactly when the card's entry names it as its hold dock, and at most
8 docks are HELD. -/
def State.holdsLinked (s : State) : Prop :=
  (∀ (d : DockNo) (n : Nat),
    (s.dock d).state.holdCard? = some n ↔ ∃ c ∈ s.cards, c.number = n ∧ c.holdDock = some d)
  ∧ s.holdCount ≤ Config.holdLimit

/-- The custody of bikes: the card table in order, every dock in its place, and every release and hold linked to one
card. -/
def State.custody (s : State) : Prop :=
  s.cardsOrdered ∧ s.docksPlaced ∧ s.releasesLinked ∧ s.holdsLinked

/-- The bike of a dock is one a rider may have: the dock is verified and not token-held, and the bike not quarantined
(R3, Law 9). -/
def State.fit (s : State) (d : DockNo) (b : DockedBike) : Prop :=
  (s.dock d).verified = true ∧ b.tokenHeld = false ∧ ∀ e, s.fault b.bike = some e → e.quarantined = false

/-- Law 9 for holds (R36, R39): the bike of every HELD dock is one a rider may have. -/
def State.heldSound (s : State) : Prop := ∀ d b h, (s.dock d).state = .held b h → s.fit d b

/-! ## Van jobs -/

/-- R156: 1 to 8 segments of 1 to 8 docks once they are configured, and none before. -/
def StationConfig.segmentsSound (c : StationConfig) : Prop :=
  c.segments.length ≤ 8 ∧ ∀ n ∈ c.segments, 1 ≤ n ∧ n ≤ 8

/-- The number of the job that a dock is marked for. -/
def DockState.jobNumber? : DockState → Option Nat
  | .vanHeld _ n => some n
  | .vanReserved n => some n
  | .absent | .empty | .docked _ | .held _ _ | .unlocking _ _ | .outOfService _ _ => none

/-- R102 to R104, of one job record: its number is 1 to 255; a COLLECT or SWEEP is OPEN and a DELIVER FILLING until it is
ENDED; while it is open it has a window and an OPEN item, and once ENDED neither; no dock is OPEN twice; the bikes counted
and the items OPEN are together no more than the requested count; an open job claims what its walk claims. -/
def State.jobSound (s : State) (j : JobRecord) : Prop :=
  1 ≤ j.number ∧ j.number ≤ 255
    ∧ (j.state = .open → j.kind = .collect ∨ j.kind = .sweep) ∧ (j.state = .filling → j.kind = .deliver)
    ∧ (j.state = .ended ↔ j.openDocks = []) ∧ (j.state = .ended ↔ j.window = none)
    ∧ j.openDocks.Nodup ∧ j.moved.length + j.openDocks.length ≤ j.requested
    ∧ (j.state ≠ .ended → ∀ k : Fin 8,
        j.claimed.getLsbD k.val = s.time.config.claimed j.start j.direction j.walk k.val)

/-- Law 10 (R106) with the job table and the segment claim map: no number is held twice and every job is sound; a dock is
VAN_HELD or VAN_RESERVED exactly for an OPEN item of the one job of its number, VAN_HELD for an OPEN job and VAN_RESERVED
for a FILLING one, and lies inside that job's claim; the map gives a segment to a job exactly where that job is open and
claims it, so that no two open jobs claim one segment. -/
def State.jobsSound (s : State) : Prop :=
  s.time.config.segmentsSound ∧ 1 ≤ s.vans.nextJob ∧ s.vans.nextJob ≤ 255
    ∧ (∀ i k a b, s.job i = some a → s.job k = some b → a.number = b.number → i = k)
    ∧ (∀ i j, s.job i = some j → s.jobSound j)
    ∧ (∀ d n, (s.dock d).state.jobNumber? = some n ↔ ∃ i j, s.job i = some j ∧ j.number = n ∧ d ∈ j.openDocks)
    ∧ (∀ i j d, s.job i = some j → d ∈ j.openDocks →
        ((s.dock d).state.isVanHeld = true ↔ j.state = .open) ∧ ((s.dock d).state.isVanReserved = true ↔ j.state = .filling)
        ∧ ∃ k : Fin 8, s.time.config.segmentOf d = some k.val ∧ j.claimed.getLsbD k.val = true)
    ∧ ∀ (k : Fin 8) (n : Nat), s.vans.claims[k] = some n ↔
        ∃ i j, s.job i = some j ∧ j.number = n ∧ j.state ≠ .ended ∧ j.claimed.getLsbD k.val = true

/-! ## The slots of the journal -/

/-- Law 1 (R135): held and reserved slots together never exceed 1,024. -/
def Journal.withinRing (j : Journal) : Prop := j.heldSlots + j.reserved ≤ 1024

/-- R134: the reservation count is the number of UNLOCKING docks and the reservation sizes of the open jobs. -/
def State.reservationsRight (s : State) : Prop :=
  s.journal.reserved = (List.finRange 64).countP (fun d => (s.dock d).state.isUnlocking)
    + (((List.finRange 4).filterMap s.job).map (fun j => if j.state = .ended then 0 else 1 + (j.requested + 7) / 8)).sum

/-! ## Rides -/

/-- R24, R43: the settled-ride list holds at most 64 pairs, none twice, each ride outcome list at most 8 entries, and the
next ride number is 1 to 65,535. -/
def Rides.bounded (r : Rides) : Prop :=
  r.settled.Nodup ∧ r.settled.length ≤ Config.settledPlaces
    ∧ r.terminalOutcomes.length ≤ Config.outcomePlaces ∧ r.uplinkOutcomes.length ≤ Config.outcomePlaces
    ∧ 1 ≤ r.nextRide ∧ r.nextRide ≤ 65535

/-! ## Attention lines -/

/-- R180: while the part is held every attention line is released; otherwise a line is asserted exactly while a pending
kind is enabled. -/
def State.linesRight (s : State) : Prop :=
  ∀ p : Port, (s.port p).attention = (!s.held && (s.port p).lineOf)

/-! ## Requests and answers -/

/-- The port, first byte and later bytes of the request frame that a command is, for the 35 rows that are frames. -/
def requestFrame? : Instr → Option (Port × Byte × List Byte)
  | .release p b => some (p, ReqKind.release.code, b)
  | .hold p b => some (p, ReqKind.hold.code, b)
  | .holdCancel p b => some (p, ReqKind.holdCancel.code, b)
  | .quote p b => some (p, ReqKind.quote.code, b)
  | .topup p b => some (p, ReqKind.topup.code, b)
  | .cardStatus p b => some (p, ReqKind.cardStatus.code, b)
  | .reportFault p b => some (p, ReqKind.reportFault.code, b)
  | .clearFault p b => some (p, ReqKind.clearFault.code, b)
  | .dockRestore p b => some (p, ReqKind.dockRestore.code, b)
  | .faultStatus p b => some (p, ReqKind.faultStatus.code, b)
  | .fetchCommand p b => some (p, ReqKind.fetchCommand.code, b)
  | .inserted p b => some (p, ReqKind.inserted.code, b)
  | .removed p b => some (p, ReqKind.removed.code, b)
  | .lockJam p b => some (p, ReqKind.lockJam.code, b)
  | .sensorFault p b => some (p, ReqKind.sensorFault.code, b)
  | .census p b => some (p, ReqKind.census.code, b)
  | .tokenReport p b => some (p, ReqKind.tokenReport.code, b)
  | .startJob p b => some (p, ReqKind.startJob.code, b)
  | .jobStatus p b => some (p, ReqKind.jobStatus.code, b)
  | .retireJob p b => some (p, ReqKind.retireJob.code, b)
  | .abortJob p b => some (p, ReqKind.abortJob.code, b)
  | .configure p b => some (p, ReqKind.configure.code, b)
  | .clockSet p b => some (p, ReqKind.clockSet.code, b)
  | .setMode p b => some (p, ReqKind.setMode.code, b)
  | .cardLoad p b => some (p, ReqKind.cardLoad.code, b)
  | .cardDrop p b => some (p, ReqKind.cardDrop.code, b)
  | .tariffStage p b => some (p, ReqKind.tariffStage.code, b)
  | .journalRead p b => some (p, ReqKind.journalRead.code, b)
  | .journalRelease p b => some (p, ReqKind.journalRelease.code, b)
  | .factoryClear p b => some (p, ReqKind.factoryClear.code, b)
  | .dockStatus p b => some (p, ReqKind.dockStatus.code, b)
  | .stationStatus p b => some (p, ReqKind.stationStatus.code, b)
  | .readNotices p b => some (p, ReqKind.readNotices.code, b)
  | .setNoticeEnables p b => some (p, ReqKind.setNoticeEnables.code, b)
  | .unknownRequest p k b => some (p, k, b)
  | .answerRead .. | .tick _ | .holdExpiry _ | .unlockWindowExpiry _ | .vanWindowExpiry _ | .staleTimerExpiry
  | .tariffSwitch | .resettlementSweep | .resetHold .. | .retentionLoss | .warmReset | .coldReset
  | .selectDuringHold _ | .spoiledTransferEnd _ => none

/-- A ready port hands its owner a request: the frame passes stages 1 and 3 to 6 (R167). -/
def State.takes {α : Type} (s : State) (kind : ReqKind) (p : Port) (bytes : List Byte)
    (read : List Byte → Except RefusalReason α) (req : α) : Prop :=
  s.ready p ∧ intake kind p bytes read s.time.config.configured = .ok req

/-- The port is QUIET and its slot holds the answer to a frame: its first byte and tag echoed, and the outcome
(R168). -/
def State.answered (t : State) (p : Port) (first : Byte) (bytes : List Byte) (reply : Reply) : Prop :=
  (t.port p).slot = some { kind := first, tag := tagOf bytes, reply := reply } ∧ (t.port p).transfer = .quiet

/-- A notice kind is pending at a port. -/
def State.notified (t : State) (p : Port) (k : Notice) : Prop := NoticeSet.has (t.port p).pendingSet k = true

/-- Of the port units an event at port `p` changes at most the slot, the transfer state and data out of `p`, and adds
to the pending sets; the lines follow the sets. -/
def State.portsKept (t s : State) (p : Port) : Prop :=
  ∀ q : Port, (t.port q).enableSet = (s.port q).enableSet
    ∧ (∀ k : Notice, s.notified q k → t.notified q k)
    ∧ (q ≠ p → (t.port q).slot = (s.port q).slot ∧ (t.port q).transfer = (s.port q).transfer
        ∧ (t.port q).dataOut = (s.port q).dataOut)

/-- `t` is `s` but for the port units, and those are kept: what a request that changes no record leaves. -/
def State.unchangedBy (t s : State) (p : Port) : Prop := t = { s with ports := t.ports } ∧ t.portsKept s p

/-- The timebase after an accepted request at a port: at the uplink port the stale timer stands at the stale period and
the link is ONLINE (R153). -/
def State.clocked (s : State) (p : Port) : Timebase :=
  if p = .uplink then { s.time with staleTimer := s.time.config.stalePeriod, link := .online } else s.time

/-- A dock that the sweep may choose: DOCKED with its token-held flag set (R45). -/
def State.tokenAt (s : State) (d : DockNo) : Prop := ∃ b, (s.dock d).state = .docked b ∧ b.tokenHeld = true

/-- How far a dock stands after the resettlement cursor in ascending dock order, wrapping; the cursor's own dock stands
last (R45). -/
def State.afterCursor (s : State) (d : DockNo) : Nat :=
  match s.rail.cursor with
  | none => d.val
  | some c => (d.val + 63 - c.val) % 64

/-- The conditions of the sweep hold, and this is the dock it chooses (R45). -/
def State.sweepsTo (s : State) (d : DockNo) : Prop :=
  s.time.config.configured = true ∧ s.time.clockValid = true ∧ s.fares.plan0.isSome = true ∧ s.journal.mode ≠ .reserve
    ∧ (∀ e, .readToken e ∉ s.rail.queue) ∧ s.rail.awaited = none ∧ s.rail.queue.length + s.rail.opens.length < 24
    ∧ s.tokenAt d ∧ ∀ e, s.tokenAt e → s.afterCursor d ≤ s.afterCursor e

/-- The rail at the end of an event that left the station `u`: where the sweep's conditions hold a READ_TOKEN for the
dock it chooses is appended and the cursor stands on it, and otherwise the rail is as the event left it (R45). -/
def Rail.sweptFrom (after : Rail) (u : State) : Prop :=
  ((∀ d, ¬ u.sweepsTo d) ∧ after = u.rail)
    ∨ ∃ d, u.sweepsTo d ∧ after = { u.rail with queue := u.rail.queue ++ [.readToken d], cursor := some d }

/-- A station with its journal mode written, as the end of an event reckons it (R136). -/
def State.withMode (u : State) (m : JournalMode) : State := { u with journal := { u.journal with mode := m } }

/-- An accepted request that changes no record of the station: the stale timer and the link of an uplink request and the
port units are written, and the sweep acts where its conditions hold (R45). -/
def State.informs (t s : State) (p : Port) : Prop :=
  t = { s with rail := t.rail, time := s.clocked p, ports := t.ports } ∧ t.rail.sweptFrom s ∧ t.portsKept s p

/-- `t` is the station `u` that an accepted request at port `p` left, but for what the end of its event writes: the
journal mode, a READ_TOKEN where the sweep's conditions hold, the stale timer and link of an uplink request, and the port
units. -/
def State.endsAs (t u : State) (p : Port) : Prop :=
  t = { u.withMode t.journal.mode with rail := t.rail, time := u.clocked p, ports := t.ports }
    ∧ t.rail.sweptFrom (u.withMode t.journal.mode)

/-- `t` is the station `u` that an event outside any request left, but for the journal mode, a READ_TOKEN where the
sweep's conditions hold, and the port units. -/
def State.settlesAs (t u : State) : Prop :=
  t = { u.withMode t.journal.mode with rail := t.rail, ports := t.ports }
    ∧ t.rail.sweptFrom (u.withMode t.journal.mode)

/-- The reason of the first check of a list that fails: a check is listed with whether it fails. -/
def firstFailing : List (Bool × RefusalReason) → Option RefusalReason
  | [] => none
  | (fails, reason) :: rest => if fails then some reason else firstFailing rest

/-! ## What a rule changes, as the statements spell it -/

/-- Some cards change, those of one number; every other entry stands. -/
def State.withCard (s : State) (n : Nat) (f : CardEntry → CardEntry) : State := { s with cards := updateCard n f s.cards }

/-- One dock's entry is written; the rest of the rail stands. -/
def State.withDock (s : State) (d : DockNo) (x : Dock) : State :=
  { s with rail := { s.rail with docks := s.rail.docks.set d x } }

/-- One record is the newest in the journal, with the next sequence number and the event's time. -/
def State.withRecord (s : State) (body : RecordBody) : State :=
  { s with
    journal :=
      { s.journal with
        records := s.journal.records ++ [⟨s.journal.nextSeq, s.stamp, body⟩]
        nextSeq := s.journal.nextSeq + 1 } }

/-- An entry is pushed on the ride outcome list of a rider port (R24). -/
def State.withOutcome (s : State) (p : RiderPort) (kind : OutcomeKind) (card : Nat) (d : DockNo) : State :=
  let o : RideOutcome := { kind := kind, card := card, dock := d, clock := s.time.clock }
  match p with
  | .terminal => { s with rides := { s.rides with terminalOutcomes := pushOutcome o s.rides.terminalOutcomes } }
  | .uplink => { s with rides := { s.rides with uplinkOutcomes := pushOutcome o s.rides.uplinkOutcomes } }

/-- The reservation count is changed. -/
def State.withReserved (s : State) (n : Nat) : State := { s with journal := { s.journal with reserved := n } }

/-- A queued command once a dock has left it: an UNLOCK of the dock is withdrawn, a BATCH_UNLOCK loses the dock and is
withdrawn where it names no other (R11). -/
def Command.opensNoMore (d : DockNo) : Command → Option Command
  | .unlock e token => if e = d then none else some (.unlock e token)
  | .batchUnlock n docks =>
    let left := docks.filter (fun x => decide (x ≠ d))
    if left = [] then none else some (.batchUnlock n left)
  | .relock docks => some (.relock docks)
  | .readToken e => some (.readToken e)

/-- The open-command records once a dock of an owner is resolved (R8): the dock leaves the open dock list of its owner's
record, which is closed where the list empties; with no record of that owner they stand. -/
def Rail.resolvesTo (r : Rail) (owner : OpenOwner) (d : DockNo) (opens : List OpenCommand) : Prop :=
  ((∀ o ∈ r.opens, o.owner ≠ owner) ∧ opens = r.opens)
    ∨ ∃ before o after, r.opens = before ++ o :: after ∧ o.owner = owner ∧ (∀ x ∈ before, x.owner ≠ owner)
      ∧ let left := o.openDocks.filter (fun x => decide (x ≠ d))
        opens = before ++ (if left = [] then [] else [{ o with openDocks := left }]) ++ after

/-- The rail once a dock that an opening command named is written anew as `x` (R8, R11): the dock leaves the queued opening
commands, and `opens` are the open-command records left. -/
def Rail.opensNoMore (r : Rail) (d : DockNo) (x : Dock) (opens : List OpenCommand) : Rail :=
  { r with docks := r.docks.set d x, queue := r.queue.filterMap (Command.opensNoMore d), opens := opens }

/-- The rail once a token-held flag of a dock has cleared: a READ_TOKEN queued for the dock is withdrawn, and the wait for
its report ends (R5). -/
def Rail.readsNoMore (r : Rail) (d : DockNo) : Rail :=
  { r with
    queue := r.queue.filter (fun c => decide (c ≠ .readToken d))
    awaited := if r.awaited = some d then none else r.awaited }

/-- The rail once an opening command's owner gives it up (R9): unfetched it is withdrawn; fetched, its open-command record
is closed and one RELOCK names the docks still on it in ascending order. -/
def Rail.givenUp (r : Rail) (owner : OpenOwner) (fetched : Bool) : Rail :=
  if fetched then
    match r.opens.find? (fun o => o.owner == owner) with
    | some o =>
      { r with
        opens := r.opens.eraseP (fun o => o.owner == owner)
        queue := r.queue ++ [.relock ((List.finRange 64).filter (fun d => decide (d ∈ o.openDocks)))] }
    | none => r
  else
    { r with
      queue := r.queue.filter (fun c => match c with
        | .unlock d _ => decide (owner ≠ .release d)
        | .batchUnlock n _ => decide (owner ≠ .job n)
        | .relock _ | .readToken _ => true) }

/-- A dock entry after its countdown takes a tick (R10, R32, R37). -/
def Dock.ticked (x : Dock) : Dock :=
  { x with
    state :=
      match x.state with
      | .held b h => if h.remaining ≤ 1 then .docked b else .held b { h with remaining := h.remaining - 1 }
      | .unlocking b r => if r.window ≤ 1 then .docked b else .unlocking b { r with window := r.window - 1 }
      | .absent => .absent
      | .empty => .empty
      | .docked b => .docked b
      | .vanHeld b j => .vanHeld b j
      | .vanReserved j => .vanReserved j
      | .outOfService b k => .outOfService b k }

/-- What a tick does at one dock that stood so as the tick began in `s`, to the station `u` it finds (R10): a hold at its
end expires (R37), a release at its end lapses with its UNLOCK given up (R32), and any other countdown falls by one. -/
def State.countdownEffect (s u : State) (d : DockNo) : State :=
  let v := u.withDock d (s.dock d).ticked
  match (s.dock d).state with
  | .held _ h =>
    if h.remaining ≤ 1 then
      (v.withCard h.card (fun c => { c with holdDock := none })).withOutcome h.origin .holdExpired h.card d
    else v
  | .unlocking _ r =>
    if r.window ≤ 1 then
      ((({ v with rail := v.rail.givenUp (.release d) r.fetched }).withReserved (u.journal.reserved - 1)).withCard r.card
        (fun c => { c with inFlight := none })).withOutcome
          r.origin (.releaseLapsed r.ride (if r.fetched then .expired else .notFetched)) r.card d
    else v
  | .absent | .empty | .docked _ | .vanHeld _ _ | .vanReserved _ | .outOfService _ _ => u

/-- What a tick does at the docks, in ascending dock number (R10). -/
def State.countdownEffects (s : State) : State := (List.finRange 64).foldl s.countdownEffect s

/-- What the end of a job does at the dock of an OPEN item that stood so as the event began in `s`, to the station `u` it
finds (R123): it is DOCKED with its bike, or EMPTY. -/
def State.returnEffect (s u : State) (d : DockNo) : State :=
  match (s.dock d).state with
  | .vanHeld b _ => u.withDock d { s.dock d with state := .docked b }
  | .vanReserved _ => u.withDock d { s.dock d with state := .empty }
  | .absent | .empty | .docked _ | .held _ _ | .unlocking _ _ | .outOfService _ _ => u

/-- What a tick does to one job that stood so as the tick began in `s`, to the station `u` it finds (R123): a window at its
end returns the OPEN items' docks, gives the batch up (R9) and ends the job LATE with its JOB_END in its reservation and its
claims out of the map (R125); any other window falls by one. -/
def State.windowEffect (s u : State) (slot : SlotNo) : State :=
  match s.job slot with
  | none => u
  | some j =>
    match j.window with
    | none => u
    | some w =>
      if w ≤ 1 then
        let conditions := { j.conditions with late := true }
        let returned := j.openDocks.foldl s.returnEffect u
        let v : State :=
          { returned with
            rail := (match j.batchFetched with
              | some fetched => returned.rail.givenUp (.job j.number) fetched
              | none => returned.rail)
            vans :=
              { u.vans with
                jobs := u.vans.jobs.set slot (some
                  { j with
                    state := .ended, window := none, conditions := conditions
                    marked := j.marked.map (fun i => if i.outcome = .open then { i with outcome := .returned } else i) })
                claims := u.vans.claims.map (fun c => if c = some j.number then none else c) } }
        (v.withReserved (u.journal.reserved - (1 + (j.requested + 7) / 8))).withRecord
          (.jobEnd { number := j.number, kind := j.kind, origin := j.origin, conditions := conditions,
                     requested := j.requested, position := j.position, mismatch := j.mismatch, moved := j.moved })
      else { u with vans := { u.vans with jobs := u.vans.jobs.set slot (some { j with window := some (w - 1) }) } }

/-- What a tick does to the van jobs, in job-slot order (R123). -/
def State.windowEffects (s : State) : State := (List.finRange 4).foldl s.windowEffect s

/-- A dock entry after its bike is quarantined (R93). -/
def Dock.quarantinedFor (x : Dock) (bike : Nat) : Dock :=
  { x with
    state :=
      match x.state with
      | .held b h => if b.bike = bike then .docked b else .held b h
      | .unlocking b r => if b.bike = bike ∧ r.fetched = false then .docked b else .unlocking b r
      | .absent => .absent
      | .empty => .empty
      | .docked b => .docked b
      | .vanHeld b j => .vanHeld b j
      | .vanReserved j => .vanReserved j
      | .outOfService b k => .outOfService b k }

/-- What the end of an open job by its window or by an abort does (R123 to R125): its OPEN items are RETURNED and their
docks given back, its batch is closed, its JOB_END goes into its reservation, and its claims leave the map. -/
def State.cutsJob (t s : State) (slot : SlotNo) (j : JobRecord) (conditions : EndConditions) : Prop :=
  t.job slot = some { j with state := .ended, window := none, conditions := conditions,
                             marked := j.marked.map (fun i => if i.outcome = .open then { i with outcome := .returned } else i) }
    ∧ (∀ d ∈ j.openDocks, ∀ b n, (s.dock d).state = .vanHeld b n → t.dock d = { s.dock d with state := .docked b })
    ∧ (∀ d ∈ j.openDocks, ∀ n, (s.dock d).state = .vanReserved n → t.dock d = { s.dock d with state := .empty })
    ∧ t.journal.records = s.journal.records ++
        [⟨s.journal.nextSeq, s.stamp,
          .jobEnd { number := j.number, kind := j.kind, origin := j.origin, conditions := conditions,
                    requested := j.requested, position := j.position, mismatch := j.mismatch, moved := j.moved }⟩]
    ∧ t.journal.reserved = s.journal.reserved - (1 + (j.requested + 7) / 8)
    ∧ (∀ k : Fin 8, t.vans.claims[k] = if s.vans.claims[k] = some j.number then none else s.vans.claims[k])
    ∧ t.notified j.origin.port .jobEnded
    ∧ (j.batchFetched = some true → ∀ o, s.rail.opens.find? (fun o => o.owner == .job j.number) = some o →
        ∃ rest, t.rail.queue = s.rail.queue ++ .relock (ascending o.openDocks) :: rest)
    ∧ (j.batchFetched = some false → ∀ docks, .batchUnlock j.number docks ∉ t.rail.queue)

/-- Named by no held record, and with no in-flight dock and no hold dock: an entry that may be evicted (R70). -/
def CardEntry.loose (c : CardEntry) : Prop := c.refCount = 0 ∧ c.inFlight = none ∧ c.holdDock = none

/-- What a new entry of the card table evicts (R70): nothing where the table has a place left, and otherwise, among the
entries that are not pinned, the one of the earliest last-use time, and of equal times the lowest card number. -/
def State.evicts (s : State) (evicted : Option Nat) : Prop :=
  (s.cards.length < 1024 ∧ evicted = none)
    ∨ (1024 ≤ s.cards.length ∧ ∃ c ∈ s.cards, c.loose ∧ evicted = some c.number
        ∧ ∀ x ∈ s.cards, x.loose → x.number ≠ c.number →
            c.lastUse < x.lastUse ∨ (c.lastUse = x.lastUse ∧ c.number < x.number))

/-- A new entry of the card table cannot be made: the table is full of pinned entries (R70). -/
def State.cardsPinned (s : State) : Prop := 1024 ≤ s.cards.length ∧ ∀ c ∈ s.cards, ¬ c.loose

/-- The entry that a report on a bike is scored on (R90, R95): the bike's own, or a new one, which in a full table replaces,
among the entries not quarantined, the one of the lowest score, then of the earliest first-report time, then of the lowest
bike number. -/
def State.scoresOn (s : State) (bike : Nat) (entry : FaultEntry) (created : Bool) (replaced : Option Nat) : Prop :=
  (s.fault bike = some entry ∧ created = false ∧ replaced = none)
    ∨ (s.fault bike = none ∧ created = true
        ∧ entry = { bike := bike, score := 0, categories := 0, reports := [], quarantined := false, firstReport := s.stamp }
        ∧ ((s.faults.length < 128 ∧ replaced = none)
          ∨ (128 ≤ s.faults.length ∧ ∃ e ∈ s.faults, e.quarantined = false ∧ replaced = some e.bike
              ∧ ∀ x ∈ s.faults, x.quarantined = false → x.bike ≠ e.bike →
                  e.score < x.score ∨ (e.score = x.score ∧ (e.firstReport < x.firstReport
                    ∨ (e.firstReport = x.firstReport ∧ e.bike < x.bike))))))

/-- A report on a bike without an entry has no place: the table is full of quarantined bikes (R96). -/
def State.faultsQuarantined (s : State) (bike : Nat) : Prop :=
  s.fault bike = none ∧ 128 ≤ s.faults.length ∧ ∀ e ∈ s.faults, e.quarantined = true

/-- The money a record adds to a merged balance (R76). -/
def Record.adds (r : Record) : Int :=
  match r.body with
  | .rideEnd f => if f.flags.deferred then 0 else f.delta
  | .topup _ amount _ _ => amount
  | .release .. | .fault .. | .faultClear .. | .jobEnd _ | .clockSet .. => 0

/-- What a record adds to the charged-today figure of a day (R77). -/
def Record.addsOn (r : Record) (day : Int) : Nat :=
  match r.body with
  | .rideEnd f => if f.flags.deferred = false ∧ f.returnDay = day then f.baseCharged else 0
  | .topup .. | .release .. | .fault .. | .faultClear .. | .jobEnd _ | .clockSet .. => 0

/-- The entry that a settled fare leaves (R61, R82), its last-use time the clock value of the event and its reference
count raised by the RIDE_END. -/
def State.chargedCard (s : State) (plan : Plan) (f : FareFigures) (day : Int) (c : CardEntry) : CardEntry :=
  let balance := max (-100000) (c.balance - (f.charge : Int))
  { c with
    balance := balance
    charged :=
      if c.day = day then min (c.charged + f.baseCharged) 1000000
      else if c.day < day then min f.baseCharged 1000000
      else c.charged
    day := if c.day < day then day else c.day
    state := if balance < -(plan.creditFloor : Int) ∧ c.state = .active then .debt else c.state
    lastUse := s.time.clock
    refCount := c.refCount + 1 }

/-- The RIDE_END of a fare (R62, R132): `c` is the entry charged, or nothing where the fare is deferred, and then the
balance after is that of the card's entry where it has one. -/
def State.rideEndFields (s : State) (c : Option CardEntry) (token : Token) (bike : Nat) (d : DockNo) (u : Duration)
    (f : FareFigures) (day : Int) (substituted : Bool) : RideEnd :=
  let before := ((s.card token.card).map (fun x => x.balance)).getD 0
  let charge := if c.isSome then (f.charge : Int) else 0
  let balance := if c.isSome then max (-100000) (before - charge) else before
  { card := token.card, bike := bike, dock := d, origin := token.origin, ride := token.ride, release := token.release,
    duration := u.seconds, tariff := token.tariff, baseBlocks := f.baseBlocks, overstayBlocks := f.overstayBlocks,
    gross := f.gross, discounted := f.discounted, capped := f.capped, surchargeCharged := f.surchargeCharged,
    baseCharged := f.baseCharged, charge := f.charge, delta := balance - before, balanceAfter := balance,
    unrecovered := balance - (before - charge), returnDay := day,
    flags := { deferred := c.isNone, clockSuspect := u.suspect, durationClamped := u.clamped, saturated := f.saturated,
               balanceLimit := c.isSome && decide (before - charge < -100000), tariffSubstituted := substituted } }

/-- A fault entry after a report is scored on it and judged (R91, R92). -/
def FaultEntry.scored (old : FaultEntry) (category : Category) (source : Port) (card : Option Nat) (time threshold : Nat) :
    FaultEntry :=
  let duplicate := card.isSome && old.reports.any (fun x => x.card == card && x.category == category)
  let score := if duplicate then old.score else min 15 (old.score + category.weight)
  { old with
    score := score
    categories := old.categories ||| category.single
    reports := (old.reports ++ [(⟨source, card, category, time⟩ : ReportEntry)]).drop (old.reports.length + 1 - 4)
    quarantined := old.quarantined || decide (source = .service) || decide (threshold ≤ score) }

/-- What a quarantine does at one dock that recorded its bike as the event began in `s`, to the station `u` it finds (R93):
a hold is lost (R39), and a release whose UNLOCK is unfetched lapses with its UNLOCK withdrawn (R33). -/
def State.quarantineEffect (s : State) (bike : Nat) (u : State) (d : DockNo) : State :=
  match (s.dock d).state with
  | .held b h =>
    if b.bike = bike then
      ((u.withDock d { s.dock d with state := .docked b }).withCard h.card
        (fun c => { c with holdDock := none })).withOutcome h.origin (.holdLost .quarantined) h.card d
    else u
  | .unlocking b r =>
    if b.bike = bike ∧ r.fetched = false then
      let v := u.withDock d { s.dock d with state := .docked b }
      ((({ v with
           rail := { v.rail with
                     queue := v.rail.queue.filter (fun c => match c with
                       | .unlock e _ => decide (e ≠ d)
                       | .batchUnlock .. | .relock .. | .readToken .. => true) } }).withReserved
          (u.journal.reserved - 1)).withCard r.card (fun c => { c with inFlight := none })).withOutcome
            r.origin (.releaseLapsed r.ride .quarantined) r.card d
    else u
  | .absent | .empty | .docked _ | .vanHeld _ _ | .vanReserved _ | .outOfService _ _ => u

/-- What a quarantine does at the docks that record its bike, in ascending dock number (R93). -/
def State.quarantineEffects (s : State) (bike : Nat) : State := (List.finRange 64).foldl (s.quarantineEffect bike) s

/-- A report outside the fault table, in the order of R97: the dock effects of a quarantine that starts, and then the
FAULT record where a slot is free, which raises the reference count of the card it names. -/
def State.reportEffects (s : State) (starts : Bool) (bike : Nat) (dock : Option DockNo) (category : Category)
    (source : Port) (card : Option Nat) (score : Nat) (quarantined : Bool) : State :=
  let u := if starts then s.quarantineEffects bike else s
  if 1 ≤ u.freeSlots then
    let v := u.withRecord (.fault bike dock category source card score quarantined)
    match card with
    | some n => v.withCard n (fun c => { c with refCount := c.refCount + 1 })
    | none => v
  else u

/-- An internal report on the bike of a dock (R89, R96, R97), made once the station stands as `u`: scored on the bike's
entry or on one made for it, or, where none can be made, recorded alone. -/
def State.reportsInternally (t u : State) (bike : Nat) (d : DockNo) (category : Category) : Prop :=
  (∀ old created replaced, u.scoresOn bike old created replaced →
    let e := old.scored category .rail none u.stamp u.time.config.threshold
    let starts := e.quarantined && !old.quarantined
    t.fault bike = some e ∧ (∀ x, x ≠ bike → replaced ≠ some x → t.fault x = u.fault x)
      ∧ (∀ x, replaced = some x → t.fault x = none)
      ∧ (starts = true → t.notified .service .quarantine ∧ t.notified .uplink .quarantine)
      ∧ t.settlesAs { u.reportEffects starts bike (some d) category .rail none e.score e.quarantined with
                      faults := t.faults })
  ∧ (u.faultsQuarantined bike →
      t.settlesAs (u.reportEffects false bike (some d) category .rail none 0 false))

/-- A job's record is written back as `j`: while an item of it is OPEN it stands so, and otherwise the job ends (R125), its
record ENDED without a window, its JOB_END with the number `seq` in its reservation, its claims out of the map. `rest` is
what the journal gains. -/
def State.settlesJob (t s : State) (slot : SlotNo) (j : JobRecord) (seq : Nat) (rest : List Record) : Prop :=
  (∀ k, k ≠ slot → t.job k = s.job k) ∧ t.vans.nextJob = s.vans.nextJob
    ∧ ((∃ i ∈ j.marked, i.outcome = .open) →
        t.job slot = some j ∧ rest = [] ∧ t.journal.reserved = s.journal.reserved ∧ t.vans.claims = s.vans.claims)
    ∧ ((∀ i ∈ j.marked, i.outcome ≠ .open) →
        t.job slot = some { j with state := .ended, window := none } ∧ t.notified j.origin.port .jobEnded
        ∧ rest = [⟨seq, s.stamp, .jobEnd { number := j.number, kind := j.kind, origin := j.origin,
                                           conditions := j.conditions, requested := j.requested, position := j.position,
                                           mismatch := j.mismatch, moved := j.moved }⟩]
        ∧ t.journal.reserved = s.journal.reserved - (1 + (j.requested + 7) / 8)
        ∧ ∀ k : Fin 8, t.vans.claims[k] = if s.vans.claims[k] = some j.number then none else s.vans.claims[k])

/-- What a rider's return into a reserved dock does to the job of the dock's number (R120): its item leaves the list; the
first EMPTY verified dock beyond the position is reserved for a new OPEN item and becomes the position, or, where the walk
has none, SHORT is added. `rest` is what the journal gains by the job, from the number `seq`. -/
def State.remarksJob (t s : State) (number : Nat) (d : DockNo) (seq : Nat) (rest : List Record) : Prop :=
  ∀ (slot : SlotNo) (j : JobRecord) (before beyond : List DockNo),
    s.slotOf number = some slot → s.job slot = some j →
    s.time.config.walk j.start j.direction j.walk = before ++ j.position :: beyond → j.position ∉ before →
      let marked := j.marked.filter (fun i => decide (i.dock ≠ d))
      let next := beyond.find? (fun x => decide (x ≠ d ∧ (s.dock x).state = .empty ∧ (s.dock x).verified = true))
      (∀ x, next = some x →
        t.dock x = { s.dock x with state := .vanReserved number } ∧ (∀ e, e ≠ d → e ≠ x → t.dock e = s.dock e)
        ∧ t.settlesJob s slot { j with marked := marked ++ [⟨x, .open⟩], position := x } seq rest)
      ∧ (next = none →
        (∀ e, e ≠ d → t.dock e = s.dock e)
        ∧ t.settlesJob s slot { j with marked := marked, conditions := { j.conditions with short := true } } seq rest)

end Sys2Proof.Machine
end

