-- ==== Sys2Proof/Certificates/Slice0/Obligations.lean ====
section
/-! DEFINITION. The statements for the provers. -/

section Statements

open Sys2Proof Sys2Proof.Machine

/-! ## The machine -/

/-- A step takes the command at the front of the queue and runs it with the queue's rest. -/
def Obligations.StepRunsFrontCommand : Prop :=
  ∀ (c : Instr) (cs : List Instr) (s : State), s.pending = c :: cs → step s = exec c { s with pending := cs }

/-- Every well-formed command answers a next state, in every state, and leaves the waiting commands as they are; an
UNKNOWN_REQUEST whose first byte is another row's is refused by name (log 22). A step with no command waiting changes
nothing (log 21). -/
def Obligations.EveryCommandAnswersNext : Prop :=
  (∀ (i : Instr) (s : State), i.wf = true → ∃ t, exec i s = .next t ∧ t.pending = s.pending)
    ∧ (∀ (p : Port) (k : Byte) (b : List Byte) (s : State), (Instr.unknownRequest p k b).wf = false →
        exec (.unknownRequest p k b) s = .refused .notThisRow)
    ∧ ∀ s : State, s.pending = [] → step s = .next s

/-- The machine right after a cold reset (R22, R47, R49, R84, R101, R128, R147, R163, R177, R184). -/
def Obligations.ResetStation : Prop :=
  (∀ d : DockNo, State.reset.dock d = ⟨.absent, false⟩)
    ∧ State.reset.rail.queue = [] ∧ State.reset.rail.opens = [] ∧ State.reset.rail.awaited = none
    ∧ State.reset.rail.cursor = none
    ∧ State.reset.rides = { nextRide := 1, settled := [], terminalOutcomes := [], uplinkOutcomes := [] }
    ∧ (∀ i : Fin 8, State.reset.fares.active[i] = none) ∧ State.reset.fares.staged = none
    ∧ State.reset.cards = [] ∧ State.reset.faults = []
    ∧ (∀ k : SlotNo, State.reset.job k = none) ∧ (∀ k : Fin 8, State.reset.vans.claims[k] = none)
    ∧ State.reset.vans.nextJob = 1
    ∧ State.reset.journal.records = [] ∧ State.reset.journal.nextSeq = 1 ∧ State.reset.journal.marker = 0
    ∧ State.reset.journal.reserved = 0 ∧ State.reset.freeSlots = 1024 ∧ State.reset.journal.mode = .normal
    ∧ State.reset.time.clock = 0 ∧ State.reset.time.clockValid = false
    ∧ State.reset.time.config
        = { configured := false, station := none, segments := [], unlockWindow := 30, holdDuration := 600,
            vanWindow := 300, stalePeriod := 300, threshold := 4, provisionalReleases := false, dayOffset := 0 }
    ∧ State.reset.time.stationMode = .closed ∧ State.reset.time.link = .offline
    ∧ State.reset.time.staleTimer = 300 ∧ State.reset.time.retention = true
    ∧ ∀ p : Port, (State.reset.port p).slot = none ∧ (State.reset.port p).transfer = .quiet
        ∧ (State.reset.port p).attention = true
        ∧ ∀ k : Notice, ((State.reset.port p).pendingSet.has k = true ↔ k = .resetSeen)
          ∧ (State.reset.port p).enableSet.has k = true

/-! ## The port units -/

/-- A held part, or a port whose transfer is SPOILED, takes nothing: the transfer ends QUIET and nothing else changes
(R166, R177). Which transfers reach the part then is the model's form (log 7), and that data out stays is its choice
(log 16). -/
def Obligations.DeafPortTakesNothing : Prop :=
  (∀ (i : Instr) (s : State) (p : Port) (first : Byte) (b : List Byte),
    requestFrame? i = some (p, first, b) → i.wf = true → (s.held = true ∨ (s.port p).transfer = .spoiled) →
      exec i s = .next (s.setPort p { s.port p with transfer := .quiet }))
    ∧ ∀ (s : State) (p : Port) (n : Nat), (s.held = true ∨ (s.port p).transfer = .spoiled) →
        exec (.answerRead p n) s = .next (s.setPort p { s.port p with transfer := .quiet })

/-- A request released while the slot is HOLDING is discarded: OVERRUN is set at its port, the slot keeps its answer,
no other port unit and no record of the station changes (R170). -/
def Obligations.OverrunDiscardsRequest : Prop :=
  ∀ (i : Instr) (s : State) (p : Port) (first : Byte) (b : List Byte) (f : AnswerFrame),
    requestFrame? i = some (p, first, b) → i.wf = true → s.held = false → (s.port p).transfer ≠ .spoiled →
    (s.port p).slot = some f →
      ∃ t, exec i s = .next t ∧ t = { s with ports := t.ports } ∧ (t.port p).slot = some f
        ∧ (t.port p).transfer = .quiet ∧ (t.port p).enableSet = (s.port p).enableSet
        ∧ (∀ k : Notice, t.notified p k ↔ s.notified p k ∨ k = .overrun)
        ∧ ∀ q : Port, q ≠ p → t.port q = s.port q

/-- Stage 1 and stage 2 (R171, R172): a frame whose shape disagrees with itself is refused BAD_FRAME, before its kind
is read; a well-shaped one of none of the 34 kinds is refused UNKNOWN_REQUEST. Either way first byte and tag are echoed
and no record changes. -/
def Obligations.ShapeThenKindAreJudged : Prop :=
  ∀ (i : Instr) (s : State) (p : Port) (first : Byte) (b : List Byte),
    requestFrame? i = some (p, first, b) → i.wf = true → s.ready p →
      ((b.length < 3 ∨ 511 < b.length ∨ beNat ((b.drop 1).take 2) + 3 ≠ b.length) →
        ∃ t, exec i s = .next t ∧ t.answered p first b (.refuse .badFrame none) ∧ t.unchangedBy s p)
      ∧ ((3 ≤ b.length ∧ b.length ≤ 511 ∧ beNat ((b.drop 1).take 2) + 3 = b.length) →
          isRequestCode first = false →
        ∃ t, exec i s = .next t ∧ t.answered p first b (.refuse .unknownRequest none) ∧ t.unchangedBy s p)

/-- The authority table by its columns (R173), the kinds taken while unconfigured (R175), and what a well-shaped request
meets at stages 3 and 6: NOT_PERMITTED at a port that may not issue it, and, unconfigured, a refusal at stage 4, 5 or
6. -/
def Obligations.AuthorityThenConfiguration : Prop :=
  (∀ k : ReqKind,
    (k.allowedAt .terminal = true ↔ k ∈ [.release, .hold, .holdCancel, .quote, .topup, .cardStatus, .reportFault,
      .dockStatus, .stationStatus, .readNotices, .setNoticeEnables])
    ∧ (k.allowedAt .rail = true ↔ k ∈ [.fetchCommand, .inserted, .removed, .lockJam, .sensorFault, .census, .tokenReport,
      .dockStatus, .stationStatus, .readNotices, .setNoticeEnables])
    ∧ (k.allowedAt .service = true ↔ k ∈ [.cardStatus, .reportFault, .clearFault, .dockRestore, .faultStatus, .startJob,
      .jobStatus, .retireJob, .abortJob, .dockStatus, .stationStatus, .readNotices, .setNoticeEnables])
    ∧ (k.allowedAt .uplink = true ↔ k ∉ [.topup, .reportFault, .fetchCommand, .inserted, .removed, .lockJam, .sensorFault,
      .census, .tokenReport])
    ∧ (k.takenUnconfigured = true ↔ k ∈ [.configure, .clockSet, .tariffStage, .cardLoad, .factoryClear, .dockStatus,
      .stationStatus, .cardStatus, .faultStatus, .jobStatus, .readNotices, .setNoticeEnables]))
  ∧ ∀ (i : Instr) (s : State) (p : Port) (kind : ReqKind) (b : List Byte),
      requestFrame? i = some (p, kind.code, b) → i.wf = true → s.ready p →
      3 ≤ b.length → b.length ≤ 511 → beNat ((b.drop 1).take 2) + 3 = b.length →
        (kind.allowedAt p = false →
          ∃ t, exec i s = .next t ∧ t.answered p kind.code b (.refuse .notPermitted none) ∧ t.unchangedBy s p)
        ∧ (kind.allowedAt p = true → s.time.config.configured = false → kind.takenUnconfigured = false →
          ∃ t reason, exec i s = .next t ∧ t.answered p kind.code b (.refuse reason none) ∧ t.unchangedBy s p
            ∧ (reason = .badFrame ∨ reason = .outOfRange ∨ reason = .unconfigured))

/-- A refused request changes no record of the station, but for an INSERTED refused at a DOCKED dock (R176). -/
def Obligations.RefusalChangesNoRecord : Prop :=
  ∀ (i : Instr) (s t : State) (p : Port) (first : Byte) (b : List Byte) (reason : RefusalReason) (pins : Option PinView),
    requestFrame? i = some (p, first, b) → s.ready p → exec i s = .next t → t.answer p = some (.refuse reason pins) →
    (∀ req x, i = .inserted p b → intake .inserted p b readReturn s.time.config.configured = .ok req →
      (s.dock req.dock).state ≠ .docked x) →
      t.unchangedBy s p

/-- ANSWER_READ (R169): the slot's frame, or IDLE, is sent from its first byte with the fill value beyond its end (the IDLE
bytes and the fill are R186's); the slot becomes EMPTY exactly where the whole frame was clocked; nothing else changes. That
data out then holds these bytes alone, with none for the answer-read code byte, is the model's choice (log 16). -/
def Obligations.AnswerIsReadWholeOrKept : Prop :=
  ∀ (s : State) (p : Port) (n : Nat), s.held = false → (s.port p).transfer ≠ .spoiled →
    ∃ t, exec (.answerRead p n) s = .next t ∧ t = { s with ports := t.ports }
      ∧ (∀ q : Port, q ≠ p → t.port q = s.port q)
      ∧ t.port p = { s.port p with transfer := .quiet, slot := (t.port p).slot, dataOut := (t.port p).dataOut }
      ∧ ((s.port p).slot = none → (t.port p).slot = none
          ∧ (t.port p).dataOut = (([0xEE, 0, 3, 0, 0, 0] : List Byte) ++ List.replicate n 0xFF).take n)
      ∧ ∀ f, (s.port p).slot = some f →
          (t.port p).dataOut = (f.bytes ++ List.replicate n 0xFF).take n
          ∧ (t.port p).slot = if f.bytes.length ≤ n then none else some f

/-- READ_NOTICES (R181): the answer reports the pending set; exactly the listed kinds leave it, with their outcome
entries; a sweep at the event's end (log 5) may set COMMAND_WAITING at the rail port. SET_NOTICE_ENABLES (R183): the enable
list is added and the disable list removed; the pending set is not touched by the request. That its answer carries the set
as it stood before such a sweep is the model's choice (log 36). -/
def Obligations.NoticeRequests : Prop :=
  (∀ (s : State) (p : Port) (bytes : List Byte) (clear : List Notice),
      s.takes .readNotices p bytes readClear clear →
        ∃ t gone, exec (.readNotices p bytes) s = .next t
          ∧ t.answered p ReqKind.readNotices.code bytes
              (.accept (.notices (s.port p).pendingSet gone (s.port p).enableSet (s.rides.outcomes? p)))
          ∧ (∀ k : Notice, gone.has k = true ↔ s.notified p k ∧ k ∈ clear)
          ∧ (∀ k : Notice, t.notified p k ↔
              (s.notified p k ∧ k ∉ clear) ∨ (p = .rail ∧ k = .commandWaiting ∧ t.rail ≠ s.rail))
          ∧ (t.port p).enableSet = (s.port p).enableSet
          ∧ t.rides.outcomes? p
              = (s.rides.outcomes? p).map (fun l => l.filter (fun o => !gone.has o.kind.notice))
          ∧ t.endsAs { s with rides := t.rides } p
          ∧ t.rides.settled = s.rides.settled ∧ t.rides.nextRide = s.rides.nextRide
          ∧ ∀ q : Port, q ≠ p → t.rides.outcomes? q = s.rides.outcomes? q ∧ (t.port q).slot = (s.port q).slot
              ∧ (t.port q).enableSet = (s.port q).enableSet)
  ∧ (∀ (s : State) (p : Port) (bytes : List Byte) (req : EnablesReq),
      s.takes .setNoticeEnables p bytes readEnables req →
        ∃ t enabled, exec (.setNoticeEnables p bytes) s = .next t
          ∧ t.answered p ReqKind.setNoticeEnables.code bytes (.accept (.enables enabled (s.port p).pendingSet))
          ∧ (∀ k : Notice, enabled.has k = true ↔
              ((s.port p).enableSet.has k = true ∨ k ∈ req.enable) ∧ k ∉ req.disable)
          ∧ (t.port p).enableSet = enabled
          ∧ (∀ k : Notice, t.notified p k ↔ s.notified p k ∨ (p = .rail ∧ k = .commandWaiting ∧ t.rail ≠ s.rail))
          ∧ t.endsAs s p
          ∧ ∀ q : Port, q ≠ p → (t.port q).enableSet = (s.port q).enableSet ∧ (t.port q).slot = (s.port q).slot)

/-! ## Releases and holds -/

/-- The checks of R27 in their order, for a card with an entry: the first that fails is the refusal's reason, and nothing
changes. The entitlement check reads the start minimum of the plan the card's index resolves to; the dock (step 8) and the
room on the rail (step 9) are judged where every earlier check passes. -/
def Obligations.ReleaseJudgedInOrder : Prop :=
  ∀ (s : State) (p : Port) (bytes : List Byte) (req : RideReq) (c : CardEntry) (reason : RefusalReason),
    s.takes .release p bytes readRide req → s.card req.card = some c →
    (let onPass := match c.kind with
        | .pass expiry => decide (s.today ≤ expiry)
        | .payg => false
     let affords := match s.fares.active[c.tariff], s.fares.active[(0 : Fin 8)] with
        | some plan, _ => decide ((plan.startMinimum : Int) ≤ c.balance)
        | none, some plan => decide ((plan.startMinimum : Int) ≤ c.balance)
        | none, none => false
     let checks :=
      [(!s.time.clockValid, RefusalReason.clockUnset), (s.fares.active[(0 : Fin 8)].isNone, .noTariff),
       (decide (s.time.stationMode = .closed), .stationClosed), (decide (c.state ≠ .active), .cardBlocked),
       (c.inFlight.isSome, .cardBusy), (!(onPass || c.provisional || affords), .cardBlocked),
       (decide (s.journal.mode = .reserve), .journalReserve),
       (decide (s.journal.mode = .tight) && !onPass, .journalTight)]
     firstFailing checks = some reason
      ∨ (firstFailing checks = none ∧ s.releaseDock c req.dock = .error reason)
      ∨ (firstFailing checks = none ∧ (∃ d, s.releaseDock c req.dock = .ok d)
          ∧ 24 ≤ s.rail.queue.length + s.rail.opens.length ∧ reason = .railBusy)) →
      ∃ t, exec (.release p bytes) s = .next t ∧ t.answered p ReqKind.release.code bytes (.refuse reason none)
        ∧ t.unchangedBy s p

/-- An accepted release of a card with an entry (R30): the ride number is taken, a slot reserved, the dock UNLOCKING,
the card's hold consumed and its in-flight dock set, and UNLOCK with its token queued; nothing else changes. -/
def Obligations.ReleaseGranted : Prop :=
  ∀ (s : State) (p : Port) (bytes : List Byte) (req : RideReq) (c : CardEntry) (d : DockNo) (b : DockedBike),
    s.takes .release p bytes readRide req → s.time.clockValid = true → s.fares.plan0.isSome = true →
    s.time.stationMode = .open → s.card req.card = some c → c.state = .active → c.inFlight = none →
    s.entitled c = true → s.journalBars c = none → s.releaseDock c req.dock = .ok d → s.rail.hasRoom = true →
    (s.dock d).state.bike? = some b →
      ∃ t, exec (.release p bytes) s = .next t
        ∧ t.answered p ReqKind.release.code bytes (.accept (.released d s.rides.nextRide none))
        ∧ t.notified .rail .commandWaiting ∧ t.portsKept s p
        ∧ t.endsAs
            { s with
              rides := { s.rides with
                         nextRide := if 65535 ≤ s.rides.nextRide then 1 else s.rides.nextRide + 1 }
              cards := updateCard req.card
                (fun x => { x with holdDock := none, inFlight := some d, lastUse := s.time.clock }) s.cards
              journal := { s.journal with reserved := s.journal.reserved + 1 }
              rail :=
                { s.rail with
                  docks := s.rail.docks.set d
                    { s.dock d with
                      state := .unlocking b
                        { card := req.card, ride := s.rides.nextRide, provisional := c.provisional,
                          window := s.time.config.unlockWindow, fetched := false, origin := riderPortOf p } }
                  queue := s.rail.queue ++
                    [.unlock d { origin := s.time.config.station.getD 0, ride := s.rides.nextRide, card := req.card,
                                 release := s.time.clock, tariff := if c.provisional then 0 else c.tariff,
                                 provisional := c.provisional }] } } p

/-- A release on the provisional path (R28, R73): offline, at the terminal port, for an absent card; otherwise the absent
card is refused UNKNOWN_CARD. The checks of steps 7 to 9 refuse it as they refuse a provisional entry, and where the table
has no place for the entry it is refused TABLE_FULL after them all (that TABLE_FULL comes last is the model's choice, log
12). An accepted one takes the ride number, reserves a slot, queues UNLOCK with its token of tariff index 0 and the
provisional flag, and makes the provisional entry with the release's dock in flight; in a full table that entry evicts the
unpinned one of the earliest last use, then of the lowest number (R70). -/
def Obligations.ProvisionalRelease : Prop :=
  ∀ (s : State) (p : Port) (bytes : List Byte) (req : RideReq),
    s.takes .release p bytes readRide req → s.time.clockValid = true → s.fares.plan0.isSome = true →
    s.time.stationMode = .open → s.card req.card = none →
      (¬ (p = .terminal ∧ s.time.link = .offline ∧ s.time.config.provisionalReleases = true
          ∧ s.provisionalCount < 32) →
        ∃ t, exec (.release p bytes) s = .next t
          ∧ t.answered p ReqKind.release.code bytes (.refuse .unknownCard none) ∧ t.unchangedBy s p)
      ∧ (p = .terminal → s.time.link = .offline → s.time.config.provisionalReleases = true → s.provisionalCount < 32 →
        (∀ reason,
          ((s.journal.mode = .tight ∧ reason = .journalTight) ∨ (s.journal.mode = .reserve ∧ reason = .journalReserve)
            ∨ (s.journal.mode = .normal ∧ s.findDock req.dock = .error reason)
            ∨ (s.journal.mode = .normal ∧ (∃ d, s.findDock req.dock = .ok d)
                ∧ 24 ≤ s.rail.queue.length + s.rail.opens.length ∧ reason = .railBusy)
            ∨ (s.journal.mode = .normal ∧ (∃ d, s.findDock req.dock = .ok d) ∧ s.rail.hasRoom = true
                ∧ s.cardsPinned ∧ reason = .tableFull)) →
          ∃ t, exec (.release p bytes) s = .next t
            ∧ t.answered p ReqKind.release.code bytes (.refuse reason none) ∧ t.unchangedBy s p)
        ∧ ∀ (d : DockNo) (evicted : Option Nat), s.journal.mode = .normal →
          s.findDock req.dock = .ok d → s.rail.hasRoom = true → s.evicts evicted →
          ∃ t, exec (.release p bytes) s = .next t
            ∧ t.answered p ReqKind.release.code bytes (.accept (.released d s.rides.nextRide evicted))
            ∧ t.card req.card = some
                { number := req.card, state := .active, kind := .payg, tariff := 0, discount := 0, balance := 0,
                  charged := 0, day := s.today, provisional := true,
                  refCount := namingCount req.card s.journal.records, inFlight := some d, holdDock := none,
                  lastUse := s.time.clock }
            ∧ (∀ n, n ≠ req.card → evicted ≠ some n → t.card n = s.card n) ∧ (∀ n, evicted = some n → t.card n = none)
            ∧ (∃ b r, (t.dock d).state = .unlocking b r ∧ r.card = req.card ∧ r.provisional = true)
            ∧ (∀ e, e ≠ d → t.dock e = s.dock e)
            ∧ t.journal.reserved = s.journal.reserved + 1 ∧ t.journal.records = s.journal.records
            ∧ t.notified .rail .commandWaiting ∧ t.portsKept s p
            ∧ ∀ b, (s.dock d).state = .docked b →
                t.endsAs
                  { s with
                    rides := { s.rides with nextRide := if 65535 ≤ s.rides.nextRide then 1 else s.rides.nextRide + 1 }
                    cards := t.cards
                    journal := { s.journal with reserved := s.journal.reserved + 1 }
                    rail :=
                      { s.rail with
                        docks := s.rail.docks.set d
                          { s.dock d with
                            state := .unlocking b
                              { card := req.card, ride := s.rides.nextRide, provisional := true,
                                window := s.time.config.unlockWindow, fetched := false, origin := .terminal } }
                        queue := s.rail.queue ++
                          [.unlock d { origin := s.time.config.station.getD 0, ride := s.rides.nextRide,
                                       card := req.card, release := s.time.clock, tariff := 0,
                                       provisional := true }] } } p)

/-- The dock of a release or a hold (R29, R3), and Law 9: an accepted release or hold is for an available bike, or, of a
release, for the dock the card holds; and in a station whose HELD docks are sound, which every step keeps
(StepKeepsCustody), the bike is verified in its dock, not token-held and not quarantined either way. -/
def Obligations.FoundDockIsAvailable : Prop :=
  (∀ (s : State) (d : DockNo), s.available d = true ↔
    ∃ b, (s.dock d).state = .docked b ∧ (s.dock d).verified = true ∧ b.tokenHeld = false ∧
      ∀ e, s.fault b.bike = some e → e.quarantined = false)
  ∧ (∀ (s : State) (d : DockNo), (∀ b, (s.dock d).state ≠ .docked b) → s.findDock (some d) = .error .dockState)
  ∧ (∀ (s : State) (d : DockNo) (b : DockedBike), (s.dock d).state = .docked b →
      s.findDock (some d) =
        if (s.dock d).verified = false then .error .dockUnverified
        else if s.isQuarantined b.bike = true then .error .bikeQuarantined
        else if b.tokenHeld = true then .error .dockState
        else .ok d)
  ∧ (∀ s : State, (∀ d, s.available d = false) → s.findDock none = .error .noBike)
  ∧ (∀ (s : State) (d : DockNo), s.available d = true → ∃ e x, s.findDock none = .ok e ∧ s.available e = true
      ∧ (s.dock e).state = .docked x
      ∧ ∀ f y, s.available f = true → (s.dock f).state = .docked y →
          ((s.fault x.bike).isSome = true → (s.fault y.bike).isSome = true)
          ∧ ((s.fault x.bike).isSome = (s.fault y.bike).isSome → x.since ≤ y.since)
          ∧ ((s.fault x.bike).isSome = (s.fault y.bike).isSome → x.since = y.since → e ≤ f))
  ∧ (∀ (s : State) (c : CardEntry) (d : DockNo) (named : Option DockNo), c.holdDock = some d →
      (s.dock d).state.isHeld = true → s.releaseDock c named = .ok d)
  ∧ (∀ (s t : State) (p : Port) (bytes : List Byte) (req : RideReq) (d : DockNo) (ride : Nat) (evicted : Option Nat),
      s.takes .release p bytes readRide req → exec (.release p bytes) s = .next t →
      t.answer p = some (.accept (.released d ride evicted)) →
        (s.available d = true ∨ ∃ c, s.card req.card = some c ∧ c.holdDock = some d)
        ∧ (s.heldSound → ∃ b, (s.dock d).state.bike? = some b ∧ s.fit d b))
  ∧ ∀ (s t : State) (p : Port) (bytes : List Byte) (req : RideReq) (d : DockNo) (n : Nat),
      s.takes .hold p bytes readRide req → exec (.hold p bytes) s = .next t →
      t.answer p = some (.accept (.held d n)) → s.available d = true

/-- HOLD (R36): its checks in their order, each refusing with nothing changed, and an accepted hold: the dock HELD, the
card's hold dock and last-use time set; nothing else changes. -/
def Obligations.HoldJudgedAndGranted : Prop :=
  ∀ (s : State) (p : Port) (bytes : List Byte) (req : RideReq),
    s.takes .hold p bytes readRide req →
      (∀ reason,
        (let c := s.card req.card
         firstFailing
          [(!s.time.clockValid, .clockUnset), (s.fares.plan0.isNone, .noTariff),
           (decide (s.time.stationMode = .closed), .stationClosed), (c.isNone, .unknownCard),
           (c.any (fun c => decide (c.state ≠ .active)), .cardBlocked), (c.any (fun c => c.inFlight.isSome), .cardBusy),
           (c.any (fun c => c.holdDock.isSome), .cardHolding), (c.any (fun c => !s.entitled c), .cardBlocked),
           (decide (s.journal.mode = .reserve), .journalReserve), (decide (8 ≤ s.holdCount), .holdLimit)] = some reason
          ∨ (∃ c, s.time.clockValid = true ∧ s.fares.plan0.isSome = true ∧ s.time.stationMode = .open
              ∧ s.card req.card = some c ∧ c.state = .active ∧ c.inFlight = none ∧ c.holdDock = none
              ∧ s.entitled c = true ∧ s.journal.mode ≠ .reserve ∧ s.holdCount < 8
              ∧ s.findDock req.dock = .error reason)) →
          ∃ t, exec (.hold p bytes) s = .next t ∧ t.answered p ReqKind.hold.code bytes (.refuse reason none)
            ∧ t.unchangedBy s p)
      ∧ ∀ (c : CardEntry) (d : DockNo) (b : DockedBike),
          s.time.clockValid = true → s.fares.plan0.isSome = true → s.time.stationMode = .open →
          s.card req.card = some c → c.state = .active → c.inFlight = none → c.holdDock = none →
          s.entitled c = true → s.journal.mode ≠ .reserve → s.holdCount < 8 → s.findDock req.dock = .ok d →
          (s.dock d).state = .docked b →
          ∃ t, exec (.hold p bytes) s = .next t
            ∧ t.answered p ReqKind.hold.code bytes (.accept (.held d s.time.config.holdDuration))
            ∧ t.portsKept s p
            ∧ t.endsAs
                ((s.withDock d { s.dock d with
                    state := .held b { card := req.card, remaining := s.time.config.holdDuration,
                                       origin := riderPortOf p } }).withCard req.card
                  (fun x => { x with holdDock := some d, lastUse := s.time.clock })) p

/-- HOLD_CANCEL (R38): NOT_FOUND for a card with no entry or no hold, NOT_PERMITTED at the port the hold did not come
from; otherwise the dock is DOCKED, the card's hold dock cleared, and nothing else changes. -/
def Obligations.HoldCancelEndsHold : Prop :=
  ∀ (s : State) (p : Port) (bytes : List Byte) (card : Nat),
    s.takes .holdCancel p bytes readCard card →
      ((s.card card = none ∨ ∃ c, s.card card = some c ∧ c.holdDock = none) →
        ∃ t, exec (.holdCancel p bytes) s = .next t
          ∧ t.answered p ReqKind.holdCancel.code bytes (.refuse .notFound none) ∧ t.unchangedBy s p)
      ∧ ∀ c d b h, s.card card = some c → c.holdDock = some d → (s.dock d).state = .held b h →
          (h.origin.port ≠ p →
            ∃ t, exec (.holdCancel p bytes) s = .next t
              ∧ t.answered p ReqKind.holdCancel.code bytes (.refuse .notPermitted none) ∧ t.unchangedBy s p)
          ∧ (h.origin.port = p →
            ∃ t, exec (.holdCancel p bytes) s = .next t
              ∧ t.answered p ReqKind.holdCancel.code bytes (.accept (.cancelled d)) ∧ t.portsKept s p
              ∧ t.endsAs ((s.withDock d { s.dock d with state := .docked b }).withCard card
                  (fun x => { x with holdDock := none })) p)

/-- REMOVED on an UNLOCKING dock (R12, R31): the dock goes EMPTY, the RELEASE record goes into its reserved slot, the
card's in-flight dock is cleared and its reference count rises, RIDE_STARTED is set with its outcome entry. An unfetched
UNLOCK leaves the queue (R11), a fetched one's open-command record loses the dock and closes where it names no other (R8);
nothing else changes. -/
def Obligations.RemovalCompletesRelease : Prop :=
  ∀ (s : State) (p : Port) (bytes : List Byte) (req : RemovedReq) (b : DockedBike) (r : ReleaseRecord),
    s.takes .removed p bytes readRemoved req → (s.dock req.dock).state = .unlocking b r →
      ∃ t opens, exec (.removed p bytes) s = .next t
        ∧ t.answered p ReqKind.removed.code bytes (.accept (.removed b.bike)) ∧ t.portsKept s p
        ∧ t.dock req.dock = { s.dock req.dock with state := .empty }
        ∧ (∀ e, e ≠ req.dock → t.dock e = s.dock e)
        ∧ (∀ token, .unlock req.dock token ∉ t.rail.queue)
        ∧ t.notified r.origin.port .rideStarted ∧ t.notified .uplink .journalWaiting
        ∧ s.rail.resolvesTo (.release req.dock) req.dock opens
        ∧ (∀ before after, s.rail.opens = before ++ ⟨.release req.dock, [req.dock]⟩ :: after →
            (∀ o ∈ before, o.owner ≠ .release req.dock) → t.rail.opens = before ++ after)
        ∧ let gone := s.rail.opensNoMore req.dock { s.dock req.dock with state := .empty } opens
          t.endsAs
            { (((s.withReserved (s.journal.reserved - 1)).withRecord
                (.release r.card req.dock b.bike r.ride r.origin r.provisional)).withCard r.card
                (fun c => { c with inFlight := none, refCount := c.refCount + 1 })).withOutcome
                  r.origin (.rideStarted r.ride) r.card req.dock with
              rail := if b.tokenHeld then gone.readsNoMore req.dock else gone } p

/-- HOLD_EXPIRY (R37) and UNLOCK_WINDOW_EXPIRY (R32, R9) where they are due in the tick at hand and no other dock's
countdown is; every other countdown takes the tick. A hold's dock returns to DOCKED, the card's hold dock is cleared and
HOLD_EXPIRED set with its outcome entry. A release's dock returns to DOCKED, the reservation is freed, the card's
in-flight dock cleared and RELEASE_LAPSED set; an unfetched UNLOCK is withdrawn (NOT_FETCHED), a fetched one is closed
with a RELOCK (EXPIRED). Where several countdowns reach 0 in the one tick each ends so, in ascending dock number, with its
own notice (R10). Where a countdown is not due nothing happens (log 2). -/
def Obligations.DockCountdownsExpire : Prop :=
  ((∀ (s : State) (d : DockNo), s.holdDue d = false → exec (.holdExpiry d) s = .next s)
    ∧ ∀ (s : State) (d : DockNo) (b : DockedBike) (h : HoldRecord),
        s.held = false → s.time.handed.docks = true → (s.dock d).state = .held b h → h.remaining = 1 →
        (∀ e, e ≠ d → s.holdDue e = false ∧ s.windowDue e = false) →
          ∃ t, exec (.holdExpiry d) s = .next t ∧ t.notified h.origin.port .holdExpired
            ∧ t.dock d = { s.dock d with state := .docked b }
            ∧ (∀ e, t.dock e = (s.dock e).ticked)
            ∧ t.settlesAs
                { (s.withCard h.card (fun c => { c with holdDock := none })).withOutcome
                    h.origin .holdExpired h.card d with
                  rail := { s.rail with docks := t.rail.docks }
                  time := { s.time with handed := { s.time.handed with docks := false } } })
  ∧ ((∀ (s : State) (d : DockNo), s.windowDue d = false → exec (.unlockWindowExpiry d) s = .next s)
    ∧ ∀ (s : State) (d : DockNo) (b : DockedBike) (r : ReleaseRecord) (queue : List Command) (opens : List OpenCommand)
        (reason : LapseReason),
        s.held = false → s.time.handed.docks = true → (s.dock d).state = .unlocking b r → r.window = 1 →
        (∀ e, e ≠ d → s.holdDue e = false ∧ s.windowDue e = false) →
        ((r.fetched = false ∧ reason = .notFetched ∧ opens = s.rail.opens
            ∧ queue = s.rail.queue.filter (fun c => match c with
                | .unlock e _ => decide (e ≠ d)
                | .batchUnlock .. | .relock .. | .readToken .. => true))
          ∨ ∃ o, r.fetched = true ∧ reason = .expired ∧ s.rail.opens.find? (fun o => o.owner == .release d) = some o
            ∧ opens = s.rail.opens.eraseP (fun o => o.owner == .release d)
            ∧ queue = s.rail.queue ++ [.relock (ascending o.openDocks)]) →
          ∃ t, exec (.unlockWindowExpiry d) s = .next t ∧ t.notified r.origin.port .releaseLapsed
            ∧ t.dock d = { s.dock d with state := .docked b }
            ∧ (∀ e, t.dock e = (s.dock e).ticked)
            ∧ t.settlesAs
                { ((s.withReserved (s.journal.reserved - 1)).withCard r.card
                    (fun c => { c with inFlight := none })).withOutcome
                    r.origin (.releaseLapsed r.ride reason) r.card d with
                  rail := { s.rail with docks := t.rail.docks, queue := queue, opens := opens }
                  time := { s.time with handed := { s.time.handed with docks := false } } })
  ∧ ∀ (s : State) (i : Instr) (d : DockNo), s.held = false → s.time.handed.docks = true →
      ((i = .holdExpiry d ∧ s.holdDue d = true) ∨ (i = .unlockWindowExpiry d ∧ s.windowDue d = true)) →
        ∃ t, exec i s = .next t
          ∧ (∀ e, t.dock e = (s.dock e).ticked)
          ∧ (∀ e b h, (s.dock e).state = .held b h → h.remaining ≤ 1 → t.notified h.origin.port .holdExpired)
          ∧ (∀ e b r, (s.dock e).state = .unlocking b r → r.window ≤ 1 → t.notified r.origin.port .releaseLapsed)
          ∧ t.settlesAs
              { s.countdownEffects with time := { s.time with handed := { s.time.handed with docks := false } } }

/-! ## The fare -/

/-- Steps 1, 3, 4 and 5 (R54, R56, R57): the duration with its flags; the base blocks, as many blocks as cover the
billable seconds and no more; the overstay blocks. -/
def Obligations.FareDurationAndBlocks : Prop :=
  (∀ back out : Nat, fareDuration back out =
    if back < out then ⟨0, true, false⟩
    else if 259200 < back - out then ⟨259200, false, true⟩
    else ⟨back - out, false, false⟩)
  ∧ ∀ (plan : Plan) (basis : FareBasis) (releaseDay returnDay : Int) (d : Nat), 1 ≤ plan.blockMinutes →
      let f := fareFigures plan basis releaseDay returnDay d
      let block := 60 * plan.blockMinutes
      (f.passApplied = true ↔ ∃ expiry, basis.kind = .pass expiry ∧ releaseDay ≤ expiry)
      ∧ f.freeMinutes = (if f.passApplied then plan.passFreeMinutes else plan.freeMinutes)
      ∧ (d ≤ plan.graceSeconds + 60 * f.freeMinutes → f.baseBlocks = 0)
      ∧ (plan.graceSeconds + 60 * f.freeMinutes < d →
          d ≤ plan.graceSeconds + 60 * f.freeMinutes + f.baseBlocks * block
          ∧ plan.graceSeconds + 60 * f.freeMinutes + f.baseBlocks * block < d + block)
      ∧ (plan.overstayStart = 0 ∨ d ≤ 60 * plan.overstayStart → f.overstayBlocks = 0)
      ∧ (plan.overstayStart ≠ 0 → 60 * plan.overstayStart < d →
          d ≤ 60 * plan.overstayStart + f.overstayBlocks * block
          ∧ 60 * plan.overstayStart + f.overstayBlocks * block < d + block)

/-- Steps 6 to 9 (R58, R59, R60) and Law 7: gross, discounted base, day cap, and the charge saturated at 60,000 with the
base kept whole. -/
def Obligations.FarePricing : Prop :=
  ∀ (plan : Plan) (basis : FareBasis) (releaseDay returnDay : Int) (d : Nat),
    let f := fareFigures plan basis releaseDay returnDay d
    let charged := if basis.day = returnDay then basis.charged else 0
    let surcharge := f.overstayBlocks * plan.overstayPrice
    f.gross = f.baseBlocks * plan.blockPrice
    ∧ f.discounted = f.gross * (100 - basis.discount) / 100
    ∧ (plan.dayCap = 0 → f.capped = f.discounted)
    ∧ (plan.dayCap ≠ 0 → f.capped = min f.discounted (plan.dayCap - charged))
    ∧ f.baseCharged = min f.capped 60000
    ∧ f.surchargeCharged = min surcharge (60000 - f.baseCharged)
    ∧ f.charge = f.baseCharged + f.surchargeCharged
    ∧ (f.saturated = true ↔ 60000 < f.capped + surcharge)
    ∧ f.charge ≤ 60000
    ∧ (plan.dayCap ≠ 0 → f.baseCharged ≤ plan.dayCap - charged)

/-- QUOTE (R64): with a valid clock, plan 0 and an entry, steps 2 to 9 on the entry, or on the deferred defaults for a
provisional one, with today as both days; no record changes, but for the sweep that may act as the event ends (R45; log 5). -/
def Obligations.QuoteComputesAndChangesNothing : Prop :=
  ∀ (s : State) (p : Port) (bytes : List Byte) (req : QuoteReq),
    s.takes .quote p bytes readQuote req →
      (∀ reason,
        firstFailing [(!s.time.clockValid, .clockUnset), (s.fares.plan0.isNone, .noTariff),
          ((s.card req.card).isNone, .unknownCard)] = some reason →
        ∃ t, exec (.quote p bytes) s = .next t ∧ t.answered p ReqKind.quote.code bytes (.refuse reason none)
          ∧ t.unchangedBy s p)
      ∧ ∀ (c : CardEntry) (index : Fin 8) (plan : Plan) (substituted : Bool),
          s.time.clockValid = true → s.card req.card = some c →
          index = (if c.provisional then 0 else c.tariff) →
          ((s.fares.active[index] = some plan ∧ s.fares.active[(0 : Fin 8)].isSome = true ∧ substituted = false)
            ∨ (s.fares.active[index] = none ∧ s.fares.active[(0 : Fin 8)] = some plan ∧ substituted = true)) →
          let basis : FareBasis :=
            if c.provisional then { kind := .payg, discount := 0, charged := 0, day := s.today }
            else { kind := c.kind, discount := c.discount, charged := c.charged, day := c.day }
          let f := fareFigures plan basis s.today s.today req.duration
          ∃ t, exec (.quote p bytes) s = .next t
            ∧ t.answered p ReqKind.quote.code bytes (.accept (.quoted
                { baseBlocks := f.baseBlocks, overstayBlocks := f.overstayBlocks, gross := f.gross,
                  discounted := f.discounted, capped := f.capped, surchargeCharged := f.surchargeCharged,
                  baseCharged := f.baseCharged, charge := f.charge,
                  tariffUsed := if substituted then 0 else index, freeMinutes := f.freeMinutes,
                  passApplied := f.passApplied,
                  flags := { deferred := c.provisional, clockSuspect := false, durationClamped := false,
                             saturated := f.saturated, balanceLimit := false,
                             tariffSubstituted := substituted } }))
            ∧ t.informs s p

/-- TARIFF_STAGE (R50): a list that is empty, names an index twice or retires index 0 is refused OUT_OF_RANGE; any other
replaces the staged set whole, and the active set stands. TARIFF_SWITCH (R51): with a tick at hand, a valid clock and a
staged set whose time has come, each staged entry replaces the plan at its index, the staged set empties and
TARIFF_SWITCHED is set at the terminal and uplink ports; otherwise nothing happens. The tick at hand is the model's form (log
1, 2), and so is it that this tick compares a set staged since it was handed (log 35). -/
def Obligations.StagedSetReplacedAndSwitched : Prop :=
  (∀ (s : State) (p : Port) (bytes : List Byte) (req : StagedSet),
      s.takes .tariffStage p bytes readStage req →
        ((req.entries = [] ∨ ¬ (req.entries.map (fun e => e.index)).Nodup ∨ ∃ e ∈ req.entries, e.index = 0 ∧ e.plan = none) →
          ∃ t, exec (.tariffStage p bytes) s = .next t
            ∧ t.answered p ReqKind.tariffStage.code bytes (.refuse .outOfRange none) ∧ t.unchangedBy s p)
        ∧ (req.entries ≠ [] → (req.entries.map (fun e => e.index)).Nodup →
            (∀ e ∈ req.entries, e.index = 0 → e.plan ≠ none) →
          ∃ t, exec (.tariffStage p bytes) s = .next t
            ∧ t.answered p ReqKind.tariffStage.code bytes
                (.accept (.staged req.effective req.entries.length (s.fares.staged.map (fun x => x.effective))))
            ∧ t.portsKept s p
            ∧ t.endsAs { s with fares := { s.fares with staged := some req } } p))
  ∧ ((∀ s : State, (s.held = true ∨ s.time.handed.fares = false ∨ s.time.clockValid = false ∨ s.fares.staged = none
        ∨ ∃ x, s.fares.staged = some x ∧ s.time.clock < x.effective) → exec .tariffSwitch s = .next s)
    ∧ ∀ (s : State) (x : StagedSet), s.held = false → s.time.handed.fares = true → s.time.clockValid = true →
        s.fares.staged = some x → x.effective ≤ s.time.clock →
          ∃ t, exec .tariffSwitch s = .next t
            ∧ (∀ i : Fin 8, t.fares.active[i] =
                match x.entries.reverse.find? (fun e => e.index == i) with
                | some e => e.plan
                | none => s.fares.active[i])
            ∧ t.fares.staged = none
            ∧ t.notified .terminal .tariffSwitched ∧ t.notified .uplink .tariffSwitched
            ∧ t.settlesAs
                { s with
                  fares := t.fares
                  time := { s.time with handed := { s.time.handed with fares := false } } })

/-! ## Returns -/

/-- The settlement of a return charged to an entry (R40, R41, R61, R62): a token whose pair is not settled, with a valid
clock, two free slots and plan 0, is charged to its card's entry, recorded by a RIDE_END and added to the settled-ride
list, and the dock is DOCKED and verified. A return into a reserved dock re-marks for its job or shortens it (R120), and
may end it: that the RIDE_END is then appended before the JOB_END is the model's reading (log 18). -/
def Obligations.ReturnSettled : Prop :=
  ∀ (s : State) (p : Port) (bytes : List Byte) (req : ReturnReq) (token : Token) (c : CardEntry) (plan : Plan)
    (substituted : Bool),
    s.takes .inserted p bytes readReturn req → req.token = some token →
    ((s.dock req.dock).state = .empty ∨ ∃ n, (s.dock req.dock).state = .vanReserved n) →
    (token.origin, token.ride) ∉ s.rides.settled → s.time.clockValid = true → 2 ≤ s.freeSlots →
    s.fares.resolve token.tariff = some (plan, substituted) →
    s.card token.card = some c → c.provisional = false →
      let u := fareDuration s.time.clock token.release
      let day := s.dayIndex s.time.clock
      let f := fareFigures plan { kind := c.kind, discount := c.discount, charged := c.charged, day := c.day }
        (s.dayIndex token.release) day u.seconds
      let balance := max (-100000) (c.balance - (f.charge : Int))
      ∃ t rest, exec (.inserted p bytes) s = .next t
        ∧ t.answered p ReqKind.inserted.code bytes
            (.accept (.returned .settled req.dock (some (token.origin, token.ride)) (some f.charge)))
        ∧ t.dock req.dock
            = ⟨.docked { bike := req.bike, since := s.time.clock, tokenHeld := false }, true⟩
        ∧ t.card token.card = some
            { c with
              balance := balance
              charged :=
                if c.day = day then min (c.charged + f.baseCharged) 1000000
                else if c.day < day then min f.baseCharged 1000000
                else c.charged
              day := if c.day < day then day else c.day
              state := if balance < -(plan.creditFloor : Int) ∧ c.state = .active then .debt else c.state
              lastUse := s.time.clock
              refCount := c.refCount + 1 }
        ∧ (∀ n, n ≠ token.card → t.card n = s.card n)
        ∧ t.rides.settled = pushSettled (token.origin, token.ride) s.rides.settled
        ∧ t.journal.records = s.journal.records ++
            ⟨s.journal.nextSeq, s.time.clock, .rideEnd
              { card := token.card, bike := req.bike, dock := req.dock, origin := token.origin, ride := token.ride,
                release := token.release, duration := u.seconds, tariff := token.tariff,
                baseBlocks := f.baseBlocks, overstayBlocks := f.overstayBlocks, gross := f.gross,
                discounted := f.discounted, capped := f.capped, surchargeCharged := f.surchargeCharged,
                baseCharged := f.baseCharged, charge := f.charge, delta := balance - c.balance,
                balanceAfter := balance, unrecovered := balance - (c.balance - (f.charge : Int)), returnDay := day,
                flags := { deferred := false, clockSuspect := u.suspect, durationClamped := u.clamped,
                           saturated := f.saturated,
                           balanceLimit := decide (c.balance - (f.charge : Int) < -100000),
                           tariffSubstituted := substituted } }⟩ :: rest
        ∧ ((s.dock req.dock).state = .empty → rest = [] ∧ t.vans = s.vans
            ∧ t.journal.reserved = s.journal.reserved ∧ ∀ e, e ≠ req.dock → t.dock e = s.dock e)
        ∧ (∀ n, (s.dock req.dock).state = .vanReserved n → t.remarksJob s n req.dock (s.journal.nextSeq + 1) rest)
        ∧ t.fares = s.fares ∧ t.faults = s.faults ∧ t.time = s.time
        ∧ t.endsAs { s with rail := { s.rail with docks := t.rail.docks }, cards := t.cards, rides := t.rides,
                            journal := t.journal, vans := t.vans } p

/-- A deferred fare (R42, R63): the token's card has no entry, or a provisional one. The RIDE_END carries DEFERRED and a
delta of 0, and no entry's fields change but for the reference count of the provisional entry it names. A return into a
reserved dock re-marks for its job or shortens it (R120), and may end it: that the RIDE_END is then appended before the
JOB_END is the model's reading (log 18). -/
def Obligations.DeferredFareChargesNoCard : Prop :=
  ∀ (s : State) (p : Port) (bytes : List Byte) (req : ReturnReq) (token : Token) (plan : Plan) (substituted : Bool),
    s.takes .inserted p bytes readReturn req → req.token = some token →
    ((s.dock req.dock).state = .empty ∨ ∃ n, (s.dock req.dock).state = .vanReserved n) →
    (token.origin, token.ride) ∉ s.rides.settled → s.time.clockValid = true → 2 ≤ s.freeSlots →
    s.fares.resolve token.tariff = some (plan, substituted) →
    (∀ c, s.card token.card = some c → c.provisional = true) →
      let u := fareDuration s.time.clock token.release
      let day := s.dayIndex s.time.clock
      let f := fareFigures plan { kind := .payg, discount := 0, charged := 0, day := day }
        (s.dayIndex token.release) day u.seconds
      let settled : State :=
        { ((s.withDock req.dock
              ⟨.docked { bike := req.bike, since := s.time.clock, tokenHeld := false }, true⟩).withRecord
            (.rideEnd
              { card := token.card, bike := req.bike, dock := req.dock, origin := token.origin,
                ride := token.ride, release := token.release, duration := u.seconds, tariff := token.tariff,
                baseBlocks := f.baseBlocks, overstayBlocks := f.overstayBlocks, gross := f.gross,
                discounted := f.discounted, capped := f.capped, surchargeCharged := f.surchargeCharged,
                baseCharged := f.baseCharged, charge := f.charge, delta := 0,
                balanceAfter := (match s.card token.card with
                  | some c => c.balance
                  | none => 0),
                unrecovered := 0, returnDay := day,
                flags := { deferred := true, clockSuspect := u.suspect, durationClamped := u.clamped,
                           saturated := f.saturated, balanceLimit := false,
                           tariffSubstituted := substituted } })).withCard token.card
            (fun c => { c with refCount := c.refCount + 1 }) with
          rides := { s.rides with settled := pushSettled (token.origin, token.ride) s.rides.settled } }
      ∃ t rest, exec (.inserted p bytes) s = .next t
        ∧ t.answered p ReqKind.inserted.code bytes
            (.accept (.returned .settled req.dock (some (token.origin, token.ride)) (some f.charge)))
        ∧ t.portsKept s p
        ∧ t.journal.records = settled.journal.records ++ rest
        ∧ t.dock req.dock = settled.dock req.dock
        ∧ ((s.dock req.dock).state = .empty → rest = [] ∧ t.endsAs settled p)
        ∧ (∀ n, (s.dock req.dock).state = .vanReserved n →
            t.remarksJob s n req.dock (s.journal.nextSeq + 1) rest
            ∧ t.endsAs { settled with rail := { s.rail with docks := t.rail.docks }, journal := t.journal,
                                      vans := t.vans } p)

/-- INSERTED into an EMPTY or VAN_RESERVED dock in its other cases (R40, R41): a pair already settled is answered SETTLED
with no fare and no record; a token that cannot be settled is answered KEEP_TOKEN with the dock token-held and TOKEN_HELD
set; a tokenless return is answered PLAIN. A rider's token in a reserved dock re-marks for the dock's job (R120). A
tokenless return into an EMPTY dock that no FILLING job claims changes the dock alone; one that a FILLING job claims is
counted by it, and the job's last OPEN item is removed with its dock EMPTY again (R121). Any other dock refuses with
DOCK_STATE, a DOCKED one with a SENSOR fault. -/
def Obligations.ReturnWithoutFare : Prop :=
  ∀ (s : State) (p : Port) (bytes : List Byte) (req : ReturnReq),
    s.takes .inserted p bytes readReturn req →
      (((s.dock req.dock).state = .empty ∨ ∃ n, (s.dock req.dock).state = .vanReserved n) →
        (∀ token, req.token = some token → (token.origin, token.ride) ∈ s.rides.settled →
          ∃ t rest, exec (.inserted p bytes) s = .next t
            ∧ t.answered p ReqKind.inserted.code bytes
                (.accept (.returned .settled req.dock (some (token.origin, token.ride)) none))
            ∧ t.dock req.dock = ⟨.docked { bike := req.bike, since := s.stamp, tokenHeld := false }, true⟩
            ∧ t.cards = s.cards ∧ t.rides = s.rides ∧ t.faults = s.faults ∧ t.time = s.time
            ∧ t.journal.records = s.journal.records ++ rest
            ∧ t.endsAs { s with rail := { s.rail with docks := t.rail.docks }, journal := t.journal, vans := t.vans } p
            ∧ (∀ n, (s.dock req.dock).state = .vanReserved n → t.remarksJob s n req.dock s.journal.nextSeq rest)
            ∧ ((s.dock req.dock).state = .empty → t.journal = s.journal ∧ t.vans = s.vans
                ∧ ∀ e, e ≠ req.dock → t.dock e = s.dock e))
        ∧ (∀ token, req.token = some token → (token.origin, token.ride) ∉ s.rides.settled →
            (s.time.clockValid = false ∨ s.freeSlots < 2 ∨ s.fares.plan0 = none) →
          ∃ t rest, exec (.inserted p bytes) s = .next t
            ∧ t.answered p ReqKind.inserted.code bytes
                (.accept (.returned .keepToken req.dock (some (token.origin, token.ride)) none))
            ∧ t.dock req.dock = ⟨.docked { bike := req.bike, since := s.stamp, tokenHeld := true }, true⟩
            ∧ t.notified .uplink .tokenHeld
            ∧ t.cards = s.cards ∧ t.rides = s.rides ∧ t.faults = s.faults ∧ t.time = s.time
            ∧ t.journal.records = s.journal.records ++ rest
            ∧ t.endsAs { s with rail := { s.rail with docks := t.rail.docks }, journal := t.journal, vans := t.vans } p
            ∧ (∀ n, (s.dock req.dock).state = .vanReserved n → t.remarksJob s n req.dock s.journal.nextSeq rest)
            ∧ ((s.dock req.dock).state = .empty → t.journal = s.journal ∧ t.vans = s.vans
                ∧ ∀ e, e ≠ req.dock → t.dock e = s.dock e))
        ∧ (req.token = none →
          let docked : Dock := ⟨.docked { bike := req.bike, since := s.stamp, tokenHeld := false }, true⟩
          let strayFor := fun (slot : SlotNo) => ∃ (j : JobRecord) (k : Nat), s.job slot = some j
            ∧ j.state = .filling ∧ s.time.config.segmentOf req.dock = some k ∧ j.claimed.getLsbD k = true
          ∃ t, exec (.inserted p bytes) s = .next t
            ∧ t.answered p ReqKind.inserted.code bytes (.accept (.returned .plain req.dock none none))
            ∧ t.dock req.dock = docked
            ∧ t.cards = s.cards ∧ t.rides = s.rides ∧ t.faults = s.faults ∧ t.time = s.time ∧ t.portsKept s p
            ∧ t.endsAs { s with rail := { s.rail with docks := t.rail.docks }, journal := t.journal, vans := t.vans } p
            ∧ ((s.dock req.dock).state = .empty → (∀ slot, ¬ strayFor slot) → t.endsAs (s.withDock req.dock docked) p)
            ∧ ∀ (slot : SlotNo) (j : JobRecord) (last : DockNo) (before after : List MarkedItem),
                (s.dock req.dock).state = .empty → strayFor slot → (∀ k, k ≠ slot → ¬ strayFor k) →
                s.job slot = some j → j.marked = before ++ ⟨last, .open⟩ :: after →
                (∀ i ∈ after, i.outcome ≠ .open) → (s.dock last).state = .vanReserved j.number →
                  t.dock last = { s.dock last with state := .empty }
                  ∧ (∀ e, e ≠ req.dock → e ≠ last → t.dock e = s.dock e)
                  ∧ ∃ rest, t.journal.records = s.journal.records ++ rest
                    ∧ t.settlesJob s slot
                        { j with moved := j.moved ++ [⟨some req.bike, false⟩],
                                 marked := j.marked.filter (fun i => decide (i.dock ≠ last)) } s.journal.nextSeq rest))
      ∧ (∀ b, (s.dock req.dock).state = .docked b →
          ∃ t, exec (.inserted p bytes) s = .next t
            ∧ t.answered p ReqKind.inserted.code bytes (.refuse .dockState none) ∧ t.portsKept s p
            ∧ t.dock req.dock = { s.dock req.dock with state := .outOfService (some b) .sensor }
            ∧ t.notified .service .dockFault ∧ t.notified .uplink .dockFault
            ∧ t.settlesAs (s.withDock req.dock { s.dock req.dock with state := .outOfService (some b) .sensor }))
      ∧ ((s.dock req.dock).state ≠ .empty → (∀ n, (s.dock req.dock).state ≠ .vanReserved n) →
          (∀ b, (s.dock req.dock).state ≠ .docked b) →
          ∃ t, exec (.inserted p bytes) s = .next t
            ∧ t.answered p ReqKind.inserted.code bytes (.refuse .dockState none) ∧ t.unchangedBy s p)

/-- TOKEN_REPORT (R46): only for the dock whose READ_TOKEN awaits its report, and any accepted report ends the wait. A
token already settled is answered SETTLED with no fare; one that can be settled is charged (R41, R61, R82) to its card's
entry, or deferred (R42), with the docked-since time as the return time, or the clock value where that time is 0, and
recorded by a RIDE_END of the recorded bike; either way the flag is cleared and the dock verified. One that cannot be
settled is kept and the dock left as it was. No token is answered PLAIN with the flag cleared, the dock verified, and a TAG
report on the recorded bike scored, judged and recorded as an internal report is (R89, R91 to R93, R96, R97). -/
def Obligations.TokenReportAnswers : Prop :=
  ∀ (s : State) (p : Port) (bytes : List Byte) (req : ReturnReq),
    s.takes .tokenReport p bytes readReturn req →
      (s.rail.awaited ≠ some req.dock →
        ∃ t, exec (.tokenReport p bytes) s = .next t
          ∧ t.answered p ReqKind.tokenReport.code bytes (.refuse .notFound none) ∧ t.unchangedBy s p)
      ∧ ∀ b, s.rail.awaited = some req.dock → (s.dock req.dock).state.bike? = some b →
          let cleared : Dock := ⟨(s.dock req.dock).state.withToken false, true⟩
          let back := if b.since = 0 then s.time.clock else b.since
          let day := s.dayIndex back
          (∀ token, req.token = some token → (token.origin, token.ride) ∈ s.rides.settled →
            ∃ t, exec (.tokenReport p bytes) s = .next t
              ∧ t.answered p ReqKind.tokenReport.code bytes
                  (.accept (.returned .settled req.dock (some (token.origin, token.ride)) none))
              ∧ t.dock req.dock = cleared ∧ t.rail.awaited = none ∧ (∀ e, e ≠ req.dock → t.dock e = s.dock e)
              ∧ t.journal = s.journal ∧ t.cards = s.cards ∧ t.rides = s.rides ∧ t.vans = s.vans ∧ t.faults = s.faults
              ∧ t.fares = s.fares ∧ t.time = s.time)
          ∧ (∀ token plan substituted, req.token = some token → (token.origin, token.ride) ∉ s.rides.settled →
              s.time.clockValid = true → 2 ≤ s.freeSlots → s.fares.resolve token.tariff = some (plan, substituted) →
            ∀ (c : Option CardEntry) (basis : FareBasis),
              ((∃ x, s.card token.card = some x ∧ x.provisional = false ∧ c = some x
                  ∧ basis = { kind := x.kind, discount := x.discount, charged := x.charged, day := x.day })
                ∨ ((∀ x, s.card token.card = some x → x.provisional = true) ∧ c = none
                    ∧ basis = { kind := .payg, discount := 0, charged := 0, day := day })) →
            let u := fareDuration back token.release
            let f := fareFigures plan basis (s.dayIndex token.release) day u.seconds
            ∃ t, exec (.tokenReport p bytes) s = .next t
              ∧ t.answered p ReqKind.tokenReport.code bytes
                  (.accept (.returned .settled req.dock (some (token.origin, token.ride)) (some f.charge)))
              ∧ t.dock req.dock = cleared ∧ t.rail.awaited = none ∧ (∀ e, e ≠ req.dock → t.dock e = s.dock e)
              ∧ t.rides = { s.rides with settled := pushSettled (token.origin, token.ride) s.rides.settled }
              ∧ t.journal.records = s.journal.records ++
                  [⟨s.journal.nextSeq, s.time.clock, .rideEnd
                    (s.rideEndFields c token b.bike req.dock u f day substituted)⟩]
              ∧ t.journal.reserved = s.journal.reserved
              ∧ (∀ x, c = some x → t.card token.card = some (s.chargedCard plan f day x))
              ∧ (∀ x, c = none → s.card token.card = some x →
                  t.card token.card = some { x with refCount := x.refCount + 1 })
              ∧ (s.card token.card = none → t.card token.card = none)
              ∧ (∀ n, n ≠ token.card → t.card n = s.card n)
              ∧ t.notified .uplink .journalWaiting
              ∧ t.vans = s.vans ∧ t.faults = s.faults ∧ t.fares = s.fares ∧ t.time = s.time)
          ∧ (∀ token, req.token = some token → (token.origin, token.ride) ∉ s.rides.settled →
              (s.time.clockValid = false ∨ s.freeSlots < 2 ∨ s.fares.plan0 = none) →
            ∃ t, exec (.tokenReport p bytes) s = .next t
              ∧ t.answered p ReqKind.tokenReport.code bytes
                  (.accept (.returned .keepToken req.dock (some (token.origin, token.ride)) none))
              ∧ t.notified .uplink .tokenHeld ∧ t.portsKept s p
              ∧ t.endsAs { s with rail := { s.rail with awaited := none } } p)
          ∧ (req.token = none →
            ∃ t, exec (.tokenReport p bytes) s = .next t
              ∧ t.answered p ReqKind.tokenReport.code bytes (.accept (.returned .plain req.dock none none))
              ∧ t.rail.awaited = none ∧ (t.dock req.dock).state.tokenHeld = false
              ∧ (t.dock req.dock).verified = true ∧ t.rides.settled = s.rides.settled
              ∧ (∀ old created replaced, s.scoresOn b.bike old created replaced →
                  ∃ e, t.fault b.bike = some e ∧ e.score = min 15 (old.score + 2)
                    ∧ e.reports.getLast? = some ⟨.rail, none, .tag, s.stamp⟩)
              ∧ (1 ≤ s.freeSlots → ∃ score quarantined, t.journal.records = s.journal.records ++
                  [⟨s.journal.nextSeq, s.stamp, .fault b.bike (some req.dock) .tag .rail none score quarantined⟩])
              ∧ t.reportsInternally
                  { s with
                    rail :=
                      { s.rail with
                        docks := s.rail.docks.set req.dock cleared
                        queue := s.rail.queue.filter (fun c => !b.tokenHeld || decide (c ≠ .readToken req.dock))
                        awaited := none } }
                  b.bike req.dock .tag)

/-- RESETTLEMENT_SWEEP (R45): with its conditions met it reads the first DOCKED token-held dock after the cursor, the
cursor's own dock last; otherwise nothing happens. -/
def Obligations.SweepReadsNextHeldToken : Prop :=
  ∀ s : State,
    let conditions := s.held = false ∧ s.time.config.configured = true ∧ s.time.clockValid = true
      ∧ s.fares.plan0.isSome = true ∧ s.journal.mode ≠ .reserve
      ∧ (∀ d, .readToken d ∉ s.rail.queue) ∧ s.rail.awaited = none
      ∧ s.rail.queue.length + s.rail.opens.length < 24
    ((¬ conditions ∨ ∀ d, ¬ s.tokenAt d) → exec .resettlementSweep s = .next s)
    ∧ (conditions → (∃ d, s.tokenAt d) →
        ∃ t d, exec .resettlementSweep s = .next t ∧ s.tokenAt d
          ∧ (∀ e, s.tokenAt e → s.afterCursor d ≤ s.afterCursor e)
          ∧ t = { s with
                  rail := { s.rail with queue := s.rail.queue ++ [.readToken d], cursor := some d }
                  ports := t.ports }
          ∧ t.notified .rail .commandWaiting ∧ ∀ q, q ≠ .rail → t.port q = s.port q)

/-! ## Cards -/

/-- TOPUP (R81): its checks in their order, each refusing with nothing changed, and an accepted top-up: the balance rises,
a DEBT card at 0 or above is ACTIVE, a TOPUP record is appended; nothing else changes. -/
def Obligations.TopupJudgedAndCredited : Prop :=
  ∀ (s : State) (p : Port) (bytes : List Byte) (req : TopupReq),
    s.takes .topup p bytes readTopup req →
      (∀ reason,
        (let c := s.card req.card
         firstFailing
          [(!s.time.clockValid, .clockUnset), (c.all (fun c => c.provisional), .unknownCard),
           (c.any (fun c => decide (c.state = .barred ∨ c.state = .lost)), .cardBlocked),
           (decide (s.journal.mode = .reserve), .journalReserve),
           (c.any (fun c => decide (1000000 < c.balance + req.amount)), .outOfRange)] = some reason) →
        ∃ t, exec (.topup p bytes) s = .next t ∧ t.answered p ReqKind.topup.code bytes (.refuse reason none)
          ∧ t.unchangedBy s p)
      ∧ ∀ c, s.time.clockValid = true → s.card req.card = some c → c.provisional = false →
          (c.state = .active ∨ c.state = .debt) → s.journal.mode ≠ .reserve → s.journal.modeRight →
          c.balance + req.amount ≤ 1000000 →
          let balance := c.balance + req.amount
          let state := if c.state = .debt ∧ 0 ≤ balance then CardState.active else c.state
          ∃ t, exec (.topup p bytes) s = .next t
            ∧ t.answered p ReqKind.topup.code bytes (.accept (.toppedUp balance state))
            ∧ t.portsKept s p ∧ t.notified .uplink .journalWaiting
            ∧ t.endsAs ((s.withRecord (.topup req.card req.amount balance state)).withCard req.card
                (fun x => { x with balance := balance, state := state, lastUse := s.time.clock,
                                   refCount := x.refCount + 1 })) p

/-- CARD_LOAD (R74 to R78): stale, future and placeless loads are refused with nothing changed; an accepted one replaces
the card's entry, which keeps its count and docks, or creates one. The balance is the office's with each held record above A
that names the card replayed in order and clamped (R76); the charged-today figure is the office's, or 0 for another day,
with today's bases charged by those records added (R77); the loaded state is judged afresh where a record added an amount
other than 0 (R78). In a full table a created entry evicts the unpinned one of the earliest last use, then of the lowest
number (R70). -/
def Obligations.CardLoadMerges : Prop :=
  ∀ (s : State) (p : Port) (bytes : List Byte) (req : LoadReq),
    s.takes .cardLoad p bytes readLoad req →
      (∀ reason,
        firstFailing [(decide (req.through < s.journal.marker), .staleLoad),
          (decide (s.journal.lastSeq < req.through), .futureLoad),
          ((s.card req.card).isNone && decide (1024 ≤ s.cards.length)
              && s.cards.all (fun c => decide (0 < c.refCount) || c.inFlight.isSome || c.holdDock.isSome),
            .tableFull)] = some reason →
        ∃ t, exec (.cardLoad p bytes) s = .next t ∧ t.answered p ReqKind.cardLoad.code bytes (.refuse reason none)
          ∧ t.unchangedBy s p)
      ∧ (s.journal.marker ≤ req.through → req.through ≤ s.journal.lastSeq →
          let replayed := s.journal.records.filter (fun r => r.names req.card && decide (req.through < r.seq))
          let balance := replayed.foldl (fun running r => max (-100000) (min 1000000 (running + r.adds))) req.balance
          let charged :=
            if s.time.clockValid then
              min 1000000 ((if req.day = s.today then req.charged else 0) + (replayed.map (fun r => r.addsOn s.today)).sum)
            else req.charged
          let day := if s.time.clockValid then s.today else req.day
          let floor := match s.fares.active[req.tariff], s.fares.active[(0 : Fin 8)] with
            | _, none => none
            | some plan, some _ => some plan.creditFloor
            | none, some plan => some plan.creditFloor
          let state := match floor with
            | none => req.state
            | some l =>
              if ∃ r ∈ replayed, r.adds ≠ 0 then
                match req.state with
                | .active => if balance < -(l : Int) then .debt else .active
                | .debt => if 0 ≤ balance then .active else .debt
                | .barred => .barred
                | .lost => .lost
              else req.state
          let entry := fun (refCount : Nat) (inFlight holdDock : Option DockNo) =>
            ({ number := req.card, state := state, kind := req.kind,
               tariff := req.tariff, discount := req.discount, balance := balance, charged := charged,
               day := day, provisional := false, refCount := refCount, inFlight := inFlight,
               holdDock := holdDock, lastUse := s.stamp } : CardEntry)
          (∀ old, s.card req.card = some old →
            ∃ t, exec (.cardLoad p bytes) s = .next t
              ∧ t.answered p ReqKind.cardLoad.code bytes (.accept (.cardLoaded
                  { created := false, evicted := none, balance := balance, charged := charged, day := day, state := state,
                    replayed := replayed.length, refCount := old.refCount }))
              ∧ t.portsKept s p
              ∧ t.endsAs (s.withCard req.card (fun _ => entry old.refCount old.inFlight old.holdDock)) p)
          ∧ ∀ evicted, s.card req.card = none → s.evicts evicted →
            let refCount := s.journal.records.countP (fun r => r.names req.card)
            ∃ t, exec (.cardLoad p bytes) s = .next t
              ∧ t.answered p ReqKind.cardLoad.code bytes (.accept (.cardLoaded
                  { created := true, evicted := evicted, balance := balance, charged := charged, day := day, state := state,
                    replayed := replayed.length, refCount := refCount }))
              ∧ t.portsKept s p
              ∧ t.card req.card = some (entry refCount none none)
              ∧ (∀ n, n ≠ req.card → evicted ≠ some n → t.card n = s.card n) ∧ (∀ n, evicted = some n → t.card n = none)
              ∧ t.endsAs { s with cards := t.cards } p)

/-- CARD_DROP (R80): an absent card is NOT_FOUND, a pinned one CARD_BUSY with its pins named; otherwise the entry is
removed whole and nothing else changes. -/
def Obligations.CardDropRemovesUnpinned : Prop :=
  ∀ (s : State) (p : Port) (bytes : List Byte) (card : Nat),
    s.takes .cardDrop p bytes readCard card →
      (s.card card = none →
        ∃ t, exec (.cardDrop p bytes) s = .next t
          ∧ t.answered p ReqKind.cardDrop.code bytes (.refuse .notFound none) ∧ t.unchangedBy s p)
      ∧ ∀ c, s.card card = some c →
          ((0 < c.refCount ∨ c.inFlight.isSome = true ∨ c.holdDock.isSome = true) →
            ∃ t, exec (.cardDrop p bytes) s = .next t
              ∧ t.answered p ReqKind.cardDrop.code bytes
                  (.refuse .cardBusy (some ⟨decide (0 < c.refCount), c.inFlight.isSome, c.holdDock.isSome⟩))
              ∧ t.unchangedBy s p)
          ∧ (c.refCount = 0 → c.inFlight = none → c.holdDock = none →
            ∃ t, exec (.cardDrop p bytes) s = .next t
              ∧ t.answered p ReqKind.cardDrop.code bytes (.accept .nothing) ∧ t.portsKept s p
              ∧ t.card card = none ∧ (∀ n, n ≠ card → t.card n = s.card n)
              ∧ t.endsAs { s with cards := t.cards } p)

/-! ## Faults -/

/-- REPORT_FAULT (R87, R88, R91 to R93, R97): its checks in their order, each refusing with nothing changed, the journal
mode judged for a rider report alone; an accepted report is scored on its bike's entry, judged for quarantine, acts on the
docks that record the bike, where a hold is lost (R39) and an unfetched release lapses (R33), and is recorded. In a full
table a new entry replaces the lowest of those not quarantined (R95). -/
def Obligations.ReportScoresAndQuarantines : Prop :=
  ∀ (s : State) (p : Port) (bytes : List Byte) (req : ReportReq),
    s.takes .reportFault p bytes (readReport p) req →
    let named : Option Nat := match req.bike, req.dock with
      | some n, _ => some n
      | none, some d => (s.dock d).state.bike?.map (fun b => b.bike)
      | none, none => none
    (∀ reason,
      firstFailing
        [(!((decide (p = .terminal) && req.category.rider) || (decide (p = .service) && req.category.crew)),
            RefusalReason.notPermitted),
         (req.bike.isSome == req.dock.isSome, .outOfRange), (named.isNone, .dockState),
         (decide (p = .terminal) && decide (s.journal.mode = .reserve), .journalReserve),
         (named.any (fun n => (s.fault n).isNone && decide (128 ≤ s.faults.length)
            && s.faults.all (fun e => e.quarantined)), .tableFull)] = some reason →
      ∃ t, exec (.reportFault p bytes) s = .next t
        ∧ t.answered p ReqKind.reportFault.code bytes (.refuse reason none) ∧ t.unchangedBy s p)
    ∧ ∀ (bike : Nat) (old : FaultEntry) (created : Bool) (replaced : Option Nat), categoryAllowed p req.category = true →
      s.reportedBike req = .ok bike → ¬ (p = .terminal ∧ s.journal.mode = .reserve) →
      s.scoresOn bike old created replaced →
      let duplicate := req.card.isSome && old.reports.any (fun x => x.card == req.card && x.category == req.category)
      let score := if duplicate then old.score else min 15 (old.score + req.category.weight)
      let starts := !old.quarantined && (decide (p = .service) || decide (s.time.config.threshold ≤ score))
      ∃ t, exec (.reportFault p bytes) s = .next t
        ∧ t.answered p ReqKind.reportFault.code bytes
            (.accept (.faultReported bike (!duplicate) (old.quarantined || starts) created score replaced))
        ∧ t.fault bike = some
            { old with
              score := score
              categories := old.categories ||| req.category.single
              reports := (old.reports ++ [(⟨p, req.card, req.category, s.stamp⟩ : ReportEntry)]).drop
                (old.reports.length + 1 - 4)
              quarantined := old.quarantined || starts }
        ∧ (∀ x, x ≠ bike → replaced ≠ some x → t.fault x = s.fault x) ∧ (∀ x, replaced = some x → t.fault x = none)
        ∧ (∀ d, t.dock d = if starts then (s.dock d).quarantinedFor bike else s.dock d)
        ∧ (starts = true → t.notified .service .quarantine ∧ t.notified .uplink .quarantine)
        ∧ (1 ≤ s.freeSlots → t.journal.records = s.journal.records ++
            [⟨s.journal.nextSeq, s.stamp,
              .fault bike req.dock req.category p req.card score (old.quarantined || starts)⟩])
        ∧ (s.freeSlots = 0 → starts = false → t.journal.records = s.journal.records)
        ∧ (starts = false → t.rides = s.rides ∧ t.journal.reserved = s.journal.reserved)
        ∧ t.fares = s.fares ∧ t.vans = s.vans ∧ t.time = s.clocked p
        ∧ t.portsKept s p
        ∧ (starts = true → ∀ d b h, (s.dock d).state = .held b h → b.bike = bike →
            t.notified h.origin.port .holdLost ∧ ∀ c, t.card h.card = some c → c.holdDock = none)
        ∧ (starts = true → ∀ d b r, (s.dock d).state = .unlocking b r → b.bike = bike → r.fetched = false →
            t.notified r.origin.port .releaseLapsed ∧ (∀ token, .unlock d token ∉ t.rail.queue)
              ∧ ∀ c, t.card r.card = some c → c.inFlight = none)
        ∧ t.endsAs { s.reportEffects starts bike req.dock req.category p req.card score (old.quarantined || starts) with
                     faults := t.faults } p

/-- CLEAR_FAULT (R99): a bike without an entry is NOT_FOUND; otherwise the entry is removed whole and a FAULT_CLEAR record
appended if a slot is free; nothing else changes. -/
def Obligations.ClearFaultRemovesEntry : Prop :=
  ∀ (s : State) (p : Port) (bytes : List Byte) (bike : Nat),
    s.takes .clearFault p bytes readBike bike →
      (s.fault bike = none →
        ∃ t, exec (.clearFault p bytes) s = .next t
          ∧ t.answered p ReqKind.clearFault.code bytes (.refuse .notFound none) ∧ t.unchangedBy s p)
      ∧ ∀ e, s.fault bike = some e →
          ∃ t, exec (.clearFault p bytes) s = .next t
            ∧ t.answered p ReqKind.clearFault.code bytes
                (.accept (.faultCleared e.score e.categories e.quarantined))
            ∧ t.portsKept s p
            ∧ t.endsAs { (if 1 ≤ s.freeSlots then s.withRecord (.faultClear bike p) else s) with
                         faults := s.faults.filter (fun x => x.bike != bike) } p

/-! ## Van jobs -/

/-- START_JOB. The walk of R105 by its arithmetic and the claim of R106: `front` are the segments before the start
segment, of `size` docks. The judgements of R110 to R112: what a walk marks, and what stops it. The checks of R108 in their
order, each refusing with nothing changed. An accepted job (R103, R109 to R114) takes the first free slot and number and
marks the first docks its walk judges so, up to the requested count and not beyond a dock that stops it; its position and
conditions are R113's; one that marked a dock has its window, batch, claim and reservation; an AUDIT, and a job that marked
nothing, ends at once with its JOB_END. -/
def Obligations.StartJobWalks : Prop :=
  (∀ (c : StationConfig) (start : DockNo) (front : List Nat) (size : Nat) (back : List Nat), c.segmentsSound →
      c.segments = front ++ size :: back → front.sum ≤ start.val → start.val < front.sum + size →
        (c.walk start .up .wrap).map Fin.val
            = (List.range size).map (fun k => front.sum + (start.val - front.sum + k) % size)
        ∧ (c.walk start .down .wrap).map Fin.val
            = (List.range size).map (fun k => front.sum + (start.val - front.sum + size - k) % size)
        ∧ (c.walk start .up .cross).map Fin.val = (List.range (c.segments.sum - start.val)).map (fun k => start.val + k)
        ∧ (c.walk start .down .cross).map Fin.val = (List.range (start.val + 1)).map (fun k => start.val - k)
        ∧ ∀ k : Nat, (∀ direction, c.claimed start direction .wrap k = true ↔ k = front.length)
          ∧ (c.claimed start .up .cross k = true ↔ front.length ≤ k ∧ k < c.segments.length)
          ∧ (c.claimed start .down .cross k = true ↔ k ≤ front.length))
  ∧ (∀ (s : State) (d : DockNo) (handling : Option FaultHandling),
      (s.judgeDock .collect handling d = .mark ↔ s.available d = true)
      ∧ (s.judgeDock .collect handling d = .stop ↔ handling = some .stop ∧ ∃ b, (s.dock d).state = .docked b
          ∧ (s.dock d).verified = true ∧ (s.isQuarantined b.bike = true ∨ b.tokenHeld = true))
      ∧ (s.judgeDock .sweep handling d = .mark ↔ ∃ b, (s.dock d).state = .docked b
          ∧ (s.dock d).verified = true ∧ (s.isQuarantined b.bike = true ∨ b.tokenHeld = true))
      ∧ s.judgeDock .sweep handling d ≠ .stop
      ∧ (s.judgeDock .deliver handling d = .mark ↔ (s.dock d).state = .empty ∧ (s.dock d).verified = true)
      ∧ s.judgeDock .deliver handling d ≠ .stop)
  ∧ ∀ (s : State) (p : Port) (bytes : List Byte) (req : StartReq),
    s.takes .startJob p bytes readStart req →
      let c := s.time.config
      let sequence := c.walk req.start req.direction req.walk
      let claims := fun (k : Fin 8) => c.claimed req.start req.direction req.walk k.val
      let reservation := 1 + (req.count + 7) / 8
      let checks :=
        [(decide (c.segments.sum ≤ req.start.val) || (decide (req.kind = .collect) != req.faultHandling.isSome)
            || (decide (req.kind ≠ .audit) != req.requested.isSome) || (decide (req.kind = .audit) != req.expected.isSome)
            || req.expected.any (fun l => l.isEmpty || decide (sequence.length < l.length)), RefusalReason.jobIllegal),
         ((List.finRange 4).all (fun i => (s.job i).isSome), .tableFull),
         ((List.finRange 8).any (fun k => claims k && (s.vans.claims[k]).isSome), .segmentBusy),
         ((decide (s.journal.mode = .reserve) && decide (req.kind ≠ .audit)) || decide (s.freeSlots < reservation),
            .journalReserve),
         ((decide (req.kind = .collect) || decide (req.kind = .sweep))
            && decide (24 ≤ s.rail.queue.length + s.rail.opens.length), .railBusy)]
      (∀ reason, firstFailing checks = some reason →
        ∃ t, exec (.startJob p bytes) s = .next t
          ∧ t.answered p ReqKind.startJob.code bytes (.refuse reason none) ∧ t.unchangedBy s p)
      ∧ ∀ slot : SlotNo, firstFailing checks = none → s.job slot = none → (∀ k, k < slot → s.job k ≠ none) →
      let number := s.takenNumber
      let judge := s.judgeDock req.kind req.faultHandling
      let found := (sequence.takeWhile (fun d => decide (judge d ≠ .stop))).filter (fun d => decide (judge d = .mark))
      let marks := found.take req.count
      let stop := sequence.find? (fun d => decide (judge d = .stop))
      ∃ t j, exec (.startJob p bytes) s = .next t ∧ t.job slot = some j
        ∧ t.answered p ReqKind.startJob.code bytes
            (.accept (.jobStarted number j.state (j.marked.map (fun i => i.dock)) j.position j.conditions j.mismatch))
        ∧ j.number = number ∧ j.origin = crewPortOf p ∧ j.kind = req.kind ∧ j.requested = req.count
        ∧ j.start = req.start ∧ j.direction = req.direction ∧ j.walk = req.walk ∧ j.faultHandling = req.faultHandling
        ∧ j.expected = req.expected ∧ (∀ k : Fin 8, j.claimed.getLsbD k.val = claims k)
        ∧ (∀ k x, s.job k = some x → x.number ≠ number)
        ∧ t.vans.nextJob = (if 255 ≤ number then 1 else number + 1)
        ∧ (∀ k, k ≠ slot → t.job k = s.job k) ∧ t.portsKept s p
        ∧ t.cards = s.cards ∧ t.faults = s.faults ∧ t.rides = s.rides ∧ t.fares = s.fares ∧ t.time = s.clocked p
        ∧ (req.kind ≠ .audit →
            (req.count ≤ found.length → j.position = marks.getLast?.getD req.start ∧ j.conditions = EndConditions.none)
            ∧ (found.length < req.count → ∀ d, stop = some d → j.position = d
                ∧ j.conditions = { EndConditions.none with short := true, stoppedAtFault := true })
            ∧ (found.length < req.count → stop = none → j.position = sequence.getLast?.getD req.start
                ∧ j.conditions = { EndConditions.none with short := true, walkLimit := decide (req.walk = .cross) })
            ∧ j.marked = marks.map (fun d => ⟨d, .open⟩) ∧ j.moved = [] ∧ j.mismatch = none)
        ∧ (req.kind ≠ .audit → marks ≠ [] →
            j.window = some c.vanWindow
            ∧ j.state = (if req.kind = .deliver then .filling else .open)
            ∧ j.batchFetched = (if req.kind = .deliver then none else some false)
            ∧ t.journal.reserved = s.journal.reserved + reservation
            ∧ t.journal.records = s.journal.records
            ∧ (∀ d ∈ marks, ∀ b, (s.dock d).state = .docked b → t.dock d = { s.dock d with state := .vanHeld b number })
            ∧ (∀ d ∈ marks, (s.dock d).state = .empty → t.dock d = { s.dock d with state := .vanReserved number })
            ∧ (∀ d, d ∉ marks → t.dock d = s.dock d)
            ∧ (∀ k : Fin 8, t.vans.claims[k] = if claims k = true then some number else s.vans.claims[k])
            ∧ (req.kind ≠ .deliver → t.notified .rail .commandWaiting
                ∧ ∃ rest, t.rail.queue = s.rail.queue ++ .batchUnlock number marks :: rest))
        ∧ ((req.kind = .audit ∨ marks = []) →
            j.state = .ended ∧ j.window = none ∧ t.journal.reserved = s.journal.reserved
            ∧ t.journal.records = s.journal.records ++
                [⟨s.journal.nextSeq, s.stamp,
                  .jobEnd { number := number, kind := req.kind, origin := crewPortOf p, conditions := j.conditions,
                            requested := req.count, position := j.position, mismatch := j.mismatch,
                            moved := j.moved }⟩]
            ∧ (∀ d, t.dock d = s.dock d) ∧ t.notified (crewPortOf p).port .jobEnded
            ∧ ∀ k : Fin 8, s.vans.claims[k] ≠ some number → t.vans.claims[k] = s.vans.claims[k])
        ∧ (req.kind = .audit →
            let pairs := sequence.zip (req.expected.getD [])
            let wrong := pairs.find? (fun q => ((s.dock q.1).state.bike?.map (fun b => b.bike)) != q.2)
            j.marked = [] ∧ j.moved = pairs.map (fun q => ⟨(s.dock q.1).state.bike?.map (fun b => b.bike), false⟩)
            ∧ j.mismatch = wrong.map (fun q => q.1) ∧ j.conditions.mismatch = wrong.isSome
            ∧ j.conditions = { EndConditions.none with mismatch := wrong.isSome }
            ∧ (∀ q, wrong = some q → j.position = q.1)
            ∧ (wrong = none → j.position = (pairs.getLast?.map (fun q => q.1)).getD req.start))

/-- REMOVED on a VAN_HELD dock is counted by its job (R12, R116), and a tokenless INSERTED into a VAN_RESERVED dock too
(R119): the item is MOVED, the bike pushed on the moved-bike list, and the job ends where no item remains OPEN, with its
JOB_END and its claims out of the map (R125). A removed dock leaves the queued batch (R11) or the batch's open-command
record, which closes where it names no other (R8). -/
def Obligations.JobCountsBikes : Prop :=
  ∀ (s : State) (p : Port) (bytes : List Byte) (d : DockNo) (number : Nat) (slot : SlotNo) (j : JobRecord)
    (i : Instr) (item : MovedBike) (after : Dock) (body : AcceptBody),
    s.slotOf number = some slot → s.job slot = some j →
    ((∃ req b, i = .removed p bytes ∧ s.takes .removed p bytes readRemoved req ∧ req.dock = d
        ∧ (s.dock d).state = .vanHeld b number ∧ item = ⟨some b.bike, b.tokenHeld⟩
        ∧ after = { s.dock d with state := .empty } ∧ body = .removed b.bike)
      ∨ ∃ req, i = .inserted p bytes ∧ s.takes .inserted p bytes readReturn req ∧ req.dock = d ∧ req.token = none
        ∧ (s.dock d).state = .vanReserved number ∧ item = ⟨some req.bike, false⟩
        ∧ after = ⟨.docked { bike := req.bike, since := s.stamp, tokenHeld := false }, true⟩
        ∧ body = .returned .plain d none none) →
      let marked := j.marked.map (fun x => if x.dock = d then { x with outcome := .moved } else x)
      let moved := j.moved ++ [item]
      let first := match i with
        | .removed .. => ReqKind.removed.code
        | _ => ReqKind.inserted.code
      ∃ t rest opens, exec i s = .next t ∧ t.answered p first bytes (.accept body)
        ∧ t.dock d = after ∧ (∀ e, e ≠ d → t.dock e = s.dock e)
        ∧ t.settlesJob s slot { j with marked := marked, moved := moved } s.journal.nextSeq rest
        ∧ t.journal = { s.journal with records := s.journal.records ++ rest, nextSeq := s.journal.nextSeq + rest.length,
                                       reserved := t.journal.reserved, mode := t.journal.mode }
        ∧ (∀ b, (s.dock d).state = .vanHeld b number →
            let gone := s.rail.opensNoMore d after opens
            s.rail.resolvesTo (.job number) d opens
            ∧ t.endsAs { s with rail := if b.tokenHeld then gone.readsNoMore d else gone, journal := t.journal,
                                vans := t.vans } p)
        ∧ ((s.dock d).state = .vanReserved number →
            t.endsAs { s with rail := { s.rail with docks := s.rail.docks.set d after }, journal := t.journal,
                              vans := t.vans } p)
        ∧ t.cards = s.cards ∧ t.faults = s.faults ∧ t.rides = s.rides ∧ t.fares = s.fares ∧ t.time = s.time

/-- RETIRE_JOB (R127) and ABORT_JOB (R124): a number no slot holds is JOB_UNKNOWN, an uplink job is NOT_PERMITTED at the
service port; an ENDED job's slot is freed by a retire and refuses an abort JOB_ILLEGAL; an open job refuses a retire
JOB_OPEN and is ended by an abort. -/
def Obligations.RetireAndAbort : Prop :=
  ∀ (s : State) (p : Port) (bytes : List Byte) (number : Nat) (i : Instr) (first : Byte),
    ((i = .retireJob p bytes ∧ first = ReqKind.retireJob.code ∧ s.takes .retireJob p bytes readJob number)
      ∨ (i = .abortJob p bytes ∧ first = ReqKind.abortJob.code ∧ s.takes .abortJob p bytes readJob number)) →
      (s.slotOf number = none →
        ∃ t, exec i s = .next t ∧ t.answered p first bytes (.refuse .jobUnknown none) ∧ t.unchangedBy s p)
      ∧ ∀ slot j, s.slotOf number = some slot → s.job slot = some j →
          (p = .service → j.origin = .uplink →
            ∃ t, exec i s = .next t ∧ t.answered p first bytes (.refuse .notPermitted none) ∧ t.unchangedBy s p)
          ∧ ((p = .uplink ∨ j.origin = .service) →
              (i = .retireJob p bytes → j.state ≠ .ended →
                ∃ t, exec i s = .next t ∧ t.answered p first bytes (.refuse .jobOpen none) ∧ t.unchangedBy s p)
              ∧ (i = .retireJob p bytes → j.state = .ended →
                ∃ t, exec i s = .next t ∧ t.answered p first bytes (.accept .nothing) ∧ t.portsKept s p
                  ∧ t.endsAs { s with vans := { s.vans with jobs := s.vans.jobs.set slot none } } p)
              ∧ (i = .abortJob p bytes → j.state = .ended →
                ∃ t, exec i s = .next t ∧ t.answered p first bytes (.refuse .jobIllegal none) ∧ t.unchangedBy s p)
              ∧ (i = .abortJob p bytes → j.state ≠ .ended →
                ∃ t, exec i s = .next t
                  ∧ t.answered p first bytes
                      (.accept (.aborted { j.conditions with aborted := true } j.moved.length j.openDocks.length))
                  ∧ t.cutsJob s slot j { j.conditions with aborted := true }
                  ∧ (∀ d, d ∉ j.openDocks → t.dock d = s.dock d) ∧ (∀ k, k ≠ slot → t.job k = s.job k)
                  ∧ t.cards = s.cards ∧ t.faults = s.faults ∧ t.rides = s.rides ∧ t.fares = s.fares))

/-- VAN_WINDOW_EXPIRY (R123) where it is due in the tick at hand and no other job's window is: the job ends LATE. Where the
windows of several jobs reach 0 in the one tick each job ends so, in job-slot order, and its RELOCK and JOB_END follow that
order. Where it is not due nothing happens (log 2). -/
def Obligations.VanWindowExpires : Prop :=
  (∀ (s : State) (slot : SlotNo), s.jobDue slot = false → exec (.vanWindowExpiry slot) s = .next s)
  ∧ (∀ (s : State) (slot : SlotNo) (j : JobRecord),
      s.held = false → s.time.handed.vans = true → s.job slot = some j → j.window = some 1 →
      (∀ k, k ≠ slot → s.jobDue k = false) →
        ∃ t, exec (.vanWindowExpiry slot) s = .next t
          ∧ t.cutsJob s slot j { j.conditions with late := true }
          ∧ (∀ d, d ∉ j.openDocks → t.dock d = s.dock d)
          ∧ (∀ k, k ≠ slot → t.job k = (s.job k).map (fun x => { x with window := x.window.map (fun w => w - 1) }))
          ∧ t.cards = s.cards ∧ t.faults = s.faults ∧ t.rides = s.rides ∧ t.fares = s.fares)
  ∧ ∀ (s : State) (slot : SlotNo), s.held = false → s.time.handed.vans = true → s.jobDue slot = true →
      ∃ t, exec (.vanWindowExpiry slot) s = .next t
        ∧ (∀ k j w, s.job k = some j → j.window = some w → w ≤ 1 →
            (t.job k).map (fun x => (x.state, x.conditions)) = some (.ended, { j.conditions with late := true })
            ∧ t.notified j.origin.port .jobEnded)
        ∧ t.settlesAs { s.windowEffects with time := { s.time with handed := { s.time.handed with vans := false } } }

/-! ## Inspections -/

/-- DOCK_STATUS and STATION_STATUS (R21, R161) describe the station as it stands; CARD_STATUS, FAULT_STATUS and JOB_STATUS
(R83, R100, R126) answer the whole record, the table's figures or lines, or the refusal for a record that does not exist.
None changes a record, but for the sweep that may act as the event ends (R45; log 5). -/
def Obligations.StatusRequests : Prop :=
  (∀ (s : State) (p : Port) (bytes : List Byte),
      (∀ d, s.takes .dockStatus p bytes readOptDock (some d) →
        ∃ t, exec (.dockStatus p bytes) s = .next t
          ∧ t.answered p ReqKind.dockStatus.code bytes (.accept (.dock (s.dock d))) ∧ t.informs s p)
      ∧ (s.takes .dockStatus p bytes readOptDock none →
        ∃ t, exec (.dockStatus p bytes) s = .next t
          ∧ t.answered p ReqKind.dockStatus.code bytes
              (.accept (.dockList (((List.finRange 64).filter (fun d => decide (d.val < s.time.config.dockCount))).map
                (fun d => s.dock d))))
          ∧ t.informs s p)
      ∧ (s.takes .stationStatus p bytes readEmpty () →
        let docks := fun (f : Dock → Bool) => (List.finRange 64).countP (fun d => f (s.dock d))
        let jobs := fun (f : JobRecord → Bool) => ((List.finRange 4).filterMap s.job).countP f
        ∃ t view, exec (.stationStatus p bytes) s = .next t
          ∧ t.answered p ReqKind.stationStatus.code bytes (.accept (.station view)) ∧ t.informs s p
          ∧ view.clock = s.time.clock ∧ view.clockValid = s.time.clockValid ∧ view.stationMode = s.time.stationMode
          ∧ view.link = s.time.link ∧ view.staleTimer = s.time.staleTimer ∧ view.config = s.time.config
          ∧ view.today = (if s.time.clockValid then some s.today else none)
          ∧ view.mode = s.journal.mode ∧ view.freeSlots = s.freeSlots
          ∧ view.heldRecords = s.journal.records.length
          ∧ view.heldSlots = (s.journal.records.map (fun r => r.slots)).sum ∧ view.reservedSlots = s.journal.reserved
          ∧ view.lastSeq = s.journal.nextSeq - 1 ∧ view.marker = s.journal.marker
          ∧ view.docks = ⟨docks (fun x => x.state.isEmpty), docks (fun x => x.state.isDocked),
              docks (fun x => x.state.isHeld), docks (fun x => x.state.isUnlocking), docks (fun x => x.state.isVanHeld),
              docks (fun x => x.state.isVanReserved), docks (fun x => x.state.isOutOfService)⟩
          ∧ view.tokenHeld = docks (fun x => x.state.bike?.any (fun b => b.tokenHeld))
          ∧ view.unverified = docks (fun x => !x.state.isAbsent && !x.verified)
          ∧ view.queueLength = s.rail.queue.length ∧ view.fetchedOpen = s.rail.opens.length
          ∧ view.holdCount = s.holdCount ∧ view.cards = s.cards.length ∧ view.faults = s.faults.length
          ∧ view.openJobs = jobs (fun j => decide (j.state ≠ .ended))
          ∧ view.endedJobs = jobs (fun j => decide (j.state = .ended))
          ∧ view.freeJobSlots = 4 - ((List.finRange 4).filterMap s.job).length
          ∧ view.provisional = s.cards.countP (fun c => c.provisional)
          ∧ view.pinned = s.cards.countP (fun c => decide (0 < c.refCount ∨ c.inFlight ≠ none ∨ c.holdDock ≠ none))
          ∧ view.quarantined = s.faults.countP (fun e => e.quarantined)
          ∧ (∀ k : Fin 8, view.defined.getLsbD k.val = (s.fares.active[k]).isSome)
          ∧ (view.readAwaited = true ↔ s.rail.awaited ≠ none)
          ∧ (view.readQueued = true ↔ ∃ d, .readToken d ∈ s.rail.queue)
          ∧ view.staged = s.fares.staged.map (fun x => (x.effective, x.entries.length))))
  ∧ (∀ (s : State) (p : Port) (bytes : List Byte) (n : Nat),
      (s.takes .cardStatus p bytes readOptCard (some n) →
        (s.card n = none → ∃ t, exec (.cardStatus p bytes) s = .next t
          ∧ t.answered p ReqKind.cardStatus.code bytes (.refuse .unknownCard none) ∧ t.unchangedBy s p)
        ∧ ∀ c, s.card n = some c →
          let valid := match c.kind with
            | .pass expiry => decide (s.today ≤ expiry)
            | .payg => false
          ∃ t, exec (.cardStatus p bytes) s = .next t
          ∧ t.answered p ReqKind.cardStatus.code bytes (.accept (.card
              { entry := c
                passValid := if s.time.clockValid then some valid else none
                chargedToday :=
                  if s.time.clockValid then some (if c.day = s.today then c.charged else 0) else none }))
          ∧ t.informs s p)
      ∧ (s.takes .cardStatus p bytes readOptCard none →
        ∃ t, exec (.cardStatus p bytes) s = .next t
          ∧ t.answered p ReqKind.cardStatus.code bytes (.accept (.cardTotals
              { entries := s.cards.length
                provisional := s.cards.countP (fun c => c.provisional)
                pinned := s.cards.countP (fun c => decide (0 < c.refCount ∨ c.inFlight ≠ none ∨ c.holdDock ≠ none))
                active := s.cards.countP (fun c => decide (c.state = .active))
                debt := s.cards.countP (fun c => decide (c.state = .debt))
                barred := s.cards.countP (fun c => decide (c.state = .barred))
                lost := s.cards.countP (fun c => decide (c.state = .lost)) }))
          ∧ t.informs s p)
      ∧ (s.takes .faultStatus p bytes readFaultQuery (.bike n) →
        (s.fault n = none → ∃ t, exec (.faultStatus p bytes) s = .next t
          ∧ t.answered p ReqKind.faultStatus.code bytes (.refuse .notFound none) ∧ t.unchangedBy s p)
        ∧ ∀ e, s.fault n = some e → ∃ t, exec (.faultStatus p bytes) s = .next t
          ∧ t.answered p ReqKind.faultStatus.code bytes (.accept (.faultEntry e)) ∧ t.informs s p)
      ∧ (s.takes .faultStatus p bytes readFaultQuery (.list n) →
        let onward := s.faults.filter (fun e => decide (n ≤ e.bike))
        let items : List FaultLine := (onward.take 32).map (fun e => ⟨e.bike, e.score, e.quarantined⟩)
        (∃ t, exec (.faultStatus p bytes) s = .next t
          ∧ t.answered p ReqKind.faultStatus.code bytes
              (.accept (.faultList s.faults.length (s.faults.countP (fun e => e.quarantined)) s.time.config.threshold
                items (decide (32 < onward.length))))
          ∧ t.informs s p)
        ∧ (s.faultsOrdered → items.Pairwise (fun a b => a.bike < b.bike)
            ∧ ∀ e ∈ onward, (∀ x ∈ items, x.bike ≠ e.bike) → ∀ x ∈ items, x.bike < e.bike))
      ∧ (s.takes .jobStatus p bytes readOptJob (some n) →
        (s.slotOf n = none → ∃ t, exec (.jobStatus p bytes) s = .next t
          ∧ t.answered p ReqKind.jobStatus.code bytes (.refuse .jobUnknown none) ∧ t.unchangedBy s p)
        ∧ ∀ slot j, s.slotOf n = some slot → s.job slot = some j →
          (p = .service → j.origin = .uplink → ∃ t, exec (.jobStatus p bytes) s = .next t
            ∧ t.answered p ReqKind.jobStatus.code bytes (.refuse .notPermitted none) ∧ t.unchangedBy s p)
          ∧ ((p = .uplink ∨ j.origin = .service) → ∃ t, exec (.jobStatus p bytes) s = .next t
            ∧ t.answered p ReqKind.jobStatus.code bytes (.accept (.job j)) ∧ t.informs s p))
      ∧ (s.takes .jobStatus p bytes readOptJob none →
        ∃ t, exec (.jobStatus p bytes) s = .next t
          ∧ t.answered p ReqKind.jobStatus.code bytes (.accept (.jobLines
              (4 - ((List.finRange 4).filterMap s.job).length)
              ((((List.finRange 4).filterMap s.job).filter (fun j => decide (p = .uplink ∨ j.origin = .service))).map
                (fun j => { number := j.number, kind := j.kind, origin := j.origin, state := j.state,
                            conditions := j.conditions, requested := j.requested, moved := j.moved.length,
                            window := j.window }))))
          ∧ t.informs s p))

/-- JOURNAL_READ (R142, R143): a from-sequence outside the held range is OUT_OF_RANGE; otherwise the answer carries held
records whole and in order from the start, at most the asked count, in a frame of at most 512 bytes. No record changes, but
for the sweep that may act as the event ends (R45; log 5). -/
def Obligations.JournalReadCarriesHeldRecords : Prop :=
  ∀ (s : State) (p : Port) (bytes : List Byte) (req : ReadReq),
    s.takes .journalRead p bytes readRead req →
      (∀ n, req.start = some n → (∀ r ∈ s.journal.records, r.seq ≠ n) →
        ∃ t, exec (.journalRead p bytes) s = .next t
          ∧ t.answered p ReqKind.journalRead.code bytes (.refuse .outOfRange none) ∧ t.unchangedBy s p)
      ∧ ∀ before rest : List Record, s.journal.records = before ++ rest →
          (req.start = none → before = []) →
          (∀ n, req.start = some n → (∀ r ∈ before, r.seq ≠ n) ∧ ∃ r, rest.head? = some r ∧ r.seq = n) →
          ∃ t carried later, exec (.journalRead p bytes) s = .next t ∧ rest = carried ++ later
            ∧ t.answered p ReqKind.journalRead.code bytes
                (.accept (.journal carried s.journal.lastSeq s.journal.marker s.journal.records.length
                  (decide (later ≠ []))))
            ∧ t.informs s p ∧ carried.length ≤ req.limit
            ∧ 27 + (carried.map (fun r => r.bytes.length)).sum ≤ 512
            ∧ (∀ r after, later = r :: after → carried.length = req.limit
                ∨ 512 < 27 + (carried.map (fun r => r.bytes.length)).sum + r.bytes.length)

/-! ## Journal and timebase -/

/-- JOURNAL_RELEASE (R144): above the last number OUT_OF_RANGE; at or below the marker accepted with nothing changed but by
the sweep that may act as the event ends (R45; log 5); otherwise every record at or below S is freed, the counts of the
cards they name fall, and the marker becomes S. -/
def Obligations.JournalReleaseFreesOldest : Prop :=
  ∀ (s : State) (p : Port) (bytes : List Byte) (through : Nat),
    s.takes .journalRelease p bytes readThrough through →
      (s.journal.nextSeq - 1 < through →
        ∃ t, exec (.journalRelease p bytes) s = .next t
          ∧ t.answered p ReqKind.journalRelease.code bytes (.refuse .outOfRange none) ∧ t.unchangedBy s p)
      ∧ (through ≤ s.journal.nextSeq - 1 → through ≤ s.journal.marker →
        ∃ t, exec (.journalRelease p bytes) s = .next t
          ∧ t.answered p ReqKind.journalRelease.code bytes
              (.accept (.journalReleased 0 0 s.journal.marker s.freeSlots s.journal.mode))
          ∧ t.informs s p)
      ∧ (through ≤ s.journal.nextSeq - 1 → s.journal.marker < through →
        let gone := s.journal.records.filter (fun r => decide (r.seq ≤ through))
        ∃ t, exec (.journalRelease p bytes) s = .next t
          ∧ t.answered p ReqKind.journalRelease.code bytes
              (.accept (.journalReleased gone.length ((gone.map (fun r => r.slots)).sum) through t.freeSlots
                (modeOfFree t.freeSlots)))
          ∧ t.journal.records = s.journal.records.filter (fun r => decide (through < r.seq))
          ∧ t.journal.marker = through ∧ t.journal.nextSeq = s.journal.nextSeq
          ∧ t.journal.reserved = s.journal.reserved
          ∧ t.cards = s.cards.map (fun c =>
              { c with refCount := c.refCount - gone.countP (fun r => r.body.card? == some c.number) })
          ∧ t.endsAs { s with journal := t.journal, cards := t.cards } p ∧ t.portsKept s p)

/-- CLOCK_SET (R151): the clock takes the new time and is valid, the old time is noted where it was valid, and a CLOCK_SET
record at the new time is appended where a slot is free; nothing else changes. SET_MODE (R155): the mode is set and the
answer carries the mode before and after; naming the mode in force changes nothing (the sweep may act as the event ends,
R45; log 5). -/
def Obligations.ClockSetAndSetMode : Prop :=
  (∀ (s : State) (p : Port) (bytes : List Byte) (new : Nat),
      s.takes .clockSet p bytes readTime new →
        let old := if s.time.clockValid then some s.time.clock else none
        let u : State := { s with time := { s.time with clock := new, clockValid := true } }
        ∃ t, exec (.clockSet p bytes) s = .next t
          ∧ t.answered p ReqKind.clockSet.code bytes (.accept (.clockSet old new)) ∧ t.portsKept s p
          ∧ t.endsAs (if 1 ≤ s.freeSlots then u.withRecord (.clockSet old new) else u) p)
  ∧ (∀ (s : State) (p : Port) (bytes : List Byte) (mode : StationMode),
      s.takes .setMode p bytes readMode mode →
        ∃ t, exec (.setMode p bytes) s = .next t
          ∧ t.answered p ReqKind.setMode.code bytes (.accept (.modeSet s.time.stationMode mode)) ∧ t.portsKept s p
          ∧ (s.time.stationMode = mode → t.informs s p)
          ∧ (s.time.stationMode ≠ mode → t.endsAs { s with time := { s.time with stationMode := mode } } p))

/-- CONFIGURE (R157, R159, R160): its checks in their order, each refusing with nothing changed; an accepted one writes
the items it carries, and a change of the segments makes the docks added EMPTY and unverified, the docks removed ABSENT,
and keeps the others; CENSUS_WANTED is set where docks are added. A dock removed leaves every queued RELOCK, which is
withdrawn where it names no other, and a resettlement cursor on it becomes 0. -/
def Obligations.ConfigureJudgedAndApplied : Prop :=
  ∀ (s : State) (p : Port) (bytes : List Byte) (req : ConfigureReq),
    s.takes .configure p bytes readConfigure req →
      let c := s.time.config
      let c' : StationConfig :=
        { configured := true
          station := req.station.or c.station
          segments := req.segments.getD c.segments
          unlockWindow := req.unlockWindow.getD c.unlockWindow
          holdDuration := req.holdDuration.getD c.holdDuration
          vanWindow := req.vanWindow.getD c.vanWindow
          stalePeriod := req.stalePeriod.getD c.stalePeriod
          threshold := req.threshold.getD c.threshold
          provisionalReleases := req.provisionalReleases.getD c.provisionalReleases
          dayOffset := req.dayOffset.getD c.dayOffset }
      let changes := decide (c'.segments ≠ c.segments)
      let removed := (List.finRange 64).filter (fun d => decide (c'.segments.sum ≤ d.val) && decide (d.val < c.segments.sum))
      let checks :=
        [(!c.configured && (req.station.isNone || req.segments.isNone), RefusalReason.outOfRange),
         (changes && s.busy, .stationBusy),
         (changes && decide (c'.segments.sum < c.segments.sum)
            && (List.finRange 64).any (fun d => decide (c'.segments.sum ≤ d.val) && !(s.dock d).state.isEmpty
                && !(s.dock d).state.isAbsent), .dockState)]
      (∀ reason, firstFailing checks = some reason →
        ∃ t, exec (.configure p bytes) s = .next t ∧ t.answered p ReqKind.configure.code bytes (.refuse reason none)
          ∧ t.unchangedBy s p)
      ∧ (firstFailing checks = none →
        ∃ t, exec (.configure p bytes) s = .next t
          ∧ t.answered p ReqKind.configure.code bytes (.accept (.configured c')) ∧ t.portsKept s p
          ∧ t.time = { s.time with config := c', staleTimer := c'.stalePeriod, link := .online }
          ∧ (changes = false → t.endsAs { s with time := { s.time with config := c' } } p)
          ∧ (changes = true → ∀ d, t.dock d =
              if c'.segments.sum ≤ d.val then ⟨.absent, false⟩
              else if c.segments.sum ≤ d.val then ⟨.empty, false⟩
              else s.dock d)
          ∧ (changes = true → c.segments.sum < c'.segments.sum → t.notified .rail .censusWanted)
          ∧ (changes = true → t.endsAs
              { s with
                time := { s.time with config := c' }
                rail :=
                  { s.rail with
                    docks := t.rail.docks
                    queue := if removed = [] then s.rail.queue else s.rail.queue.filterMap (fun command => match command with
                      | .relock docks =>
                        let left := docks.filter (fun d => decide (d ∉ removed))
                        if left = [] then none else some (.relock left)
                      | .unlock .. | .batchUnlock .. | .readToken _ => some command)
                    cursor := s.rail.cursor.filter (fun d => decide (d.val < c'.segments.sum)) } } p)
          ∧ t.rail.opens = s.rail.opens ∧ t.rail.awaited = s.rail.awaited
          ∧ t.cards = s.cards ∧ t.faults = s.faults ∧ t.rides = s.rides ∧ t.fares = s.fares ∧ t.vans = s.vans
          ∧ t.journal.records = s.journal.records ∧ t.journal.reserved = s.journal.reserved)

/-- TICK (R149, R150, R162): a valid clock counts one second, and at its greatest value it stays and becomes invalid, an
invalid one stands, held or not. Out of the hold, with no earlier tick untaken, a tick that no holder takes at once is
handed to the three holders of countdowns, and to the fare unit where the clock is valid, since a tick taken while it is
invalid makes no comparison (R51); it changes nothing else but for the sweep that may act as the event ends (R45). The dock
table controller taking it lowers every dock countdown by one (R10; the handing is the model's form, log 1).
STALE_TIMER_EXPIRY (R153): with a tick at hand and the timer at 1, the timer falls to 0 and an ONLINE link becomes OFFLINE
with LINK_CHANGED at the terminal and service ports; an OFFLINE one stays with no notice; where it is not due nothing
happens (log 2). -/
def Obligations.TickAndStaleTimer : Prop :=
  ((∀ (s : State) (takers : List TickHolder), ∃ t, exec (.tick takers) s = .next t
      ∧ (s.time.clockValid = true → s.time.clock < 4294967295 →
          t.time.clock = s.time.clock + 1 ∧ t.time.clockValid = true)
      ∧ (s.time.clockValid = true → s.time.clock = 4294967295 →
          t.time.clock = s.time.clock ∧ t.time.clockValid = false)
      ∧ (s.time.clockValid = false → t.time.clock = s.time.clock ∧ t.time.clockValid = false)
      ∧ (s.held = true → t = { s with time := { s.time with clock := t.time.clock, clockValid := t.time.clockValid } }))
    ∧ (∀ s : State, s.held = false → s.time.handed = ⟨false, false, false, false⟩ →
        ∃ t, exec (.tick []) s = .next t
          ∧ t.settlesAs { s with time := { s.time with clock := t.time.clock, clockValid := t.time.clockValid,
                                                       handed := ⟨true, true, t.time.clockValid, true⟩ } }
          ∧ t.journal.mode = s.journal.mode)
    ∧ ∀ s : State, s.held = false → s.time.handed = ⟨false, false, false, false⟩ →
        ∃ t, exec (.tick [.docks]) s = .next t ∧ t.time.handed = ⟨false, true, t.time.clockValid, true⟩
          ∧ ∀ d, t.dock d = (s.dock d).ticked)
  ∧ ((∀ s : State, (s.held = true ∨ 2 ≤ s.time.staleTimer ∨ (s.time.handed.stale = false ∧ 1 ≤ s.time.staleTimer)) →
      exec .staleTimerExpiry s = .next s)
    ∧ ∀ s : State, s.held = false → s.time.handed.stale = true → s.time.staleTimer = 1 →
        ∃ t, exec .staleTimerExpiry s = .next t
          ∧ t.settlesAs
              { s with
                time := { s.time with staleTimer := 0, link := .offline,
                                      handed := { s.time.handed with stale := false } } }
          ∧ (s.time.link = .online → t.notified .terminal .linkChanged ∧ t.notified .service .linkChanged)
          ∧ (s.time.link = .offline → ∀ q, t.notified q .linkChanged ↔ s.notified q .linkChanged))

/-! ## Docks and the rail -/

/-- FETCH_COMMAND (R7): an empty queue answers NONE and nothing changes but by the sweep, which may act as the event ends (R45;
that it acts at the end of an event that changed nothing is the model's reading, log 5); otherwise the oldest command leaves
the queue and is answered with the number left. An UNLOCK or BATCH_UNLOCK becomes fetched-open and marks its release or job;
a READ_TOKEN becomes the awaited read; a RELOCK is finished. -/
def Obligations.FetchTakesOldestCommand : Prop :=
  ∀ (s : State) (p : Port) (bytes : List Byte),
    s.takes .fetchCommand p bytes readEmpty () →
      (s.rail.queue = [] →
        ∃ t, exec (.fetchCommand p bytes) s = .next t
          ∧ t.answered p ReqKind.fetchCommand.code bytes (.accept (.fetched none 0)) ∧ t.informs s p)
      ∧ ∀ c rest, s.rail.queue = c :: rest →
          ∃ t, exec (.fetchCommand p bytes) s = .next t
            ∧ t.answered p ReqKind.fetchCommand.code bytes (.accept (.fetched (some c) rest.length))
            ∧ t.portsKept s p
            ∧ (∀ d token b r, c = .unlock d token → (s.dock d).state = .unlocking b r →
                t.endsAs
                  { s with
                    rail := { s.rail with
                              queue := rest
                              opens := s.rail.opens ++ [⟨.release d, [d]⟩]
                              docks := s.rail.docks.set d
                                { s.dock d with state := .unlocking b { r with fetched := true } } } } p)
            ∧ (∀ number docks slot j, c = .batchUnlock number docks → s.slotOf number = some slot →
                s.job slot = some j →
                t.endsAs
                  { s with
                    rail := { s.rail with queue := rest, opens := s.rail.opens ++ [⟨.job number, docks⟩] }
                    vans := { s.vans with jobs := s.vans.jobs.set slot (some { j with batchFetched := some true }) } } p)
            ∧ (∀ docks, c = .relock docks → t.endsAs { s with rail := { s.rail with queue := rest } } p)
            ∧ (∀ d, c = .readToken d → t.endsAs { s with rail := { s.rail with queue := rest, awaited := some d } } p)

/-- REMOVED outside a release and a job (R11, R13, R14): a dock that records no bike is refused DOCK_STATE; an
OUT_OF_SERVICE dock gives up its bike and no report is made; a DOCKED or HELD dock is a forced removal: it goes EMPTY, no
queued RELOCK names it any more, a hold on it is lost (R39), and its bike's entry gains a FORCED_REMOVAL report, made as an
internal report is (R89), after those effects (the order is the model's reading, log 31). -/
def Obligations.ForcedRemoval : Prop :=
  ∀ (s : State) (p : Port) (bytes : List Byte) (req : RemovedReq),
    s.takes .removed p bytes readRemoved req →
      ((s.dock req.dock).state.bike? = none →
        ∃ t, exec (.removed p bytes) s = .next t
          ∧ t.answered p ReqKind.removed.code bytes (.refuse .dockState none) ∧ t.unchangedBy s p)
      ∧ (∀ b k, (s.dock req.dock).state = .outOfService (some b) k →
          ∃ t, exec (.removed p bytes) s = .next t
            ∧ t.answered p ReqKind.removed.code bytes (.accept (.removed b.bike)) ∧ t.portsKept s p
            ∧ t.dock req.dock = { s.dock req.dock with state := .outOfService none k }
            ∧ (∀ e, e ≠ req.dock → t.dock e = s.dock e) ∧ t.rail.opens = s.rail.opens
            ∧ let gone := s.rail.opensNoMore req.dock { s.dock req.dock with state := .outOfService none k } s.rail.opens
              t.endsAs { s with rail := if b.tokenHeld then gone.readsNoMore req.dock else gone } p)
      ∧ ∀ b hold, ((s.dock req.dock).state = .docked b ∧ hold = none
            ∨ ∃ h, (s.dock req.dock).state = .held b h ∧ hold = some h) →
          ∃ t, exec (.removed p bytes) s = .next t
            ∧ t.answered p ReqKind.removed.code bytes (.accept (.removed b.bike))
            ∧ t.dock req.dock = { s.dock req.dock with state := .empty }
            ∧ (∀ docks, .relock docks ∈ t.rail.queue → req.dock ∉ docks)
            ∧ (∀ e, e ≠ req.dock → (t.dock e = s.dock e ∨ t.dock e = (s.dock e).quarantinedFor b.bike))
            ∧ (∀ h, hold = some h → t.notified h.origin.port .holdLost
                ∧ ∀ c, t.card h.card = some c → c.holdDock = none)
            ∧ (∀ old created replaced, s.scoresOn b.bike old created replaced →
                ∃ e, t.fault b.bike = some e ∧ e.score = min 15 (old.score + 3)
                  ∧ e.reports.getLast? = some ⟨.rail, none, .forcedRemoval, s.stamp⟩)
            ∧ (1 ≤ s.freeSlots → ∃ score quarantined, t.journal.records = s.journal.records ++
                [⟨s.journal.nextSeq, s.stamp,
                  .fault b.bike (some req.dock) .forcedRemoval .rail none score quarantined⟩])
            ∧ t.vans = s.vans ∧ t.fares = s.fares ∧ t.time = s.time ∧ t.portsKept s p
            ∧ let gone : State :=
                { s with
                  rail :=
                    { s.rail with
                      docks := s.rail.docks.set req.dock { s.dock req.dock with state := .empty }
                      queue := s.rail.queue.filterMap (fun c => match c with
                        | .unlock e token => if e = req.dock then none else some (.unlock e token)
                        | .batchUnlock n docks =>
                          let left := docks.filter (fun x => decide (x ≠ req.dock))
                          if left = [] then none else some (.batchUnlock n left)
                        | .relock docks =>
                          let left := docks.filter (fun x => decide (x ≠ req.dock))
                          if left = [] then none else some (.relock left)
                        | .readToken e => if e = req.dock ∧ b.tokenHeld = true then none else some (.readToken e))
                      awaited := if b.tokenHeld = true ∧ s.rail.awaited = some req.dock then none else s.rail.awaited } }
              t.reportsInternally
                (match hold with
                  | some h => (gone.withCard h.card (fun c => { c with holdDock := none })).withOutcome
                      h.origin (.holdLost .forcedRemoval) h.card req.dock
                  | none => gone) b.bike req.dock .forcedRemoval

/-- LOCK_JAM and SENSOR_FAULT (R15, R16, R34, R39, R117, R122): an ABSENT dock is refused DOCK_STATE; any other goes
OUT_OF_SERVICE with its bike and the reported kind, with DOCK_FAULT at the service and uplink ports; a hold is lost; a
release is voided with the lapse reason JAMMED; a job's item is FAULTED and the job ends where none is OPEN. The dock leaves
the queued command that was to open it (R11), or its open-command record (R8). -/
def Obligations.DockFaultTakesDockOut : Prop :=
  ∀ (s : State) (p : Port) (bytes : List Byte) (i : Instr) (first : Byte) (d : DockNo) (kind : DockFaultKind),
    ((i = .lockJam p bytes ∧ first = ReqKind.lockJam.code ∧ s.takes .lockJam p bytes readDock d ∧ kind = .lockJam)
      ∨ (i = .sensorFault p bytes ∧ first = ReqKind.sensorFault.code
          ∧ s.takes .sensorFault p bytes readSensor ⟨d, kind⟩)) →
      let out : Dock := { s.dock d with state := .outOfService (s.dock d).state.bike? kind }
      ((s.dock d).state = .absent →
        ∃ t, exec i s = .next t ∧ t.answered p first bytes (.refuse .dockState none) ∧ t.unchangedBy s p)
      ∧ ((s.dock d).state ≠ .absent →
        ∃ t, exec i s = .next t ∧ t.answered p first bytes (.accept .nothing)
          ∧ t.dock d = out ∧ (∀ e, e ≠ d → t.dock e = s.dock e)
          ∧ t.notified .service .dockFault ∧ t.notified .uplink .dockFault
          ∧ t.faults = s.faults ∧ t.fares = s.fares ∧ t.time = s.time
          ∧ (((s.dock d).state = .empty ∨ (∃ b, (s.dock d).state = .docked b)
                ∨ ∃ b k, (s.dock d).state = .outOfService b k) →
              t.settlesAs (s.withDock d out))
          ∧ (∀ b h, (s.dock d).state = .held b h → t.notified h.origin.port .holdLost
              ∧ t.settlesAs (((s.withDock d out).withCard h.card
                  (fun c => { c with holdDock := none })).withOutcome h.origin (.holdLost .dockFault) h.card d))
          ∧ (∀ b r, (s.dock d).state = .unlocking b r → t.notified r.origin.port .releaseLapsed
              ∧ (∀ token, .unlock d token ∉ t.rail.queue)
              ∧ t.journal.records = s.journal.records ∧ t.journal.reserved = s.journal.reserved - 1
              ∧ t.cards = updateCard r.card (fun c => { c with inFlight := none }) s.cards
              ∧ ∃ opens, s.rail.resolvesTo (.release d) d opens
                ∧ t.settlesAs
                    { ((s.withReserved (s.journal.reserved - 1)).withCard r.card
                        (fun c => { c with inFlight := none })).withOutcome r.origin (.releaseLapsed r.ride .jammed) r.card d with
                      rail := s.rail.opensNoMore d out opens })
          ∧ (∀ number slot j, ((∃ b, (s.dock d).state = .vanHeld b number) ∨ (s.dock d).state = .vanReserved number) →
              s.slotOf number = some slot → s.job slot = some j →
              let marked := j.marked.map (fun x => if x.dock = d then { x with outcome := .faulted } else x)
              let conditions := { j.conditions with dockFault := true }
              ∃ rest opens, t.settlesJob s slot { j with marked := marked, conditions := conditions } s.journal.nextSeq rest
                ∧ t.journal = { s.journal with records := s.journal.records ++ rest
                                               nextSeq := s.journal.nextSeq + rest.length
                                               reserved := t.journal.reserved, mode := t.journal.mode }
                ∧ (∀ b, (s.dock d).state = .vanHeld b number →
                    s.rail.resolvesTo (.job number) d opens
                    ∧ t.settlesAs { s with rail := s.rail.opensNoMore d out opens, journal := t.journal, vans := t.vans })
                ∧ ((s.dock d).state = .vanReserved number →
                    t.settlesAs { s with rail := { s.rail with docks := s.rail.docks.set d out }, journal := t.journal,
                                         vans := t.vans })))

/-- CENSUS (R17 to R19, R39, R98): a report unsound as a whole is refused OUT_OF_RANGE with nothing changed; a sound one
verifies every dock it lists and corrects it by its state, leaves every other dock, and counts what it verified and the
recorded bikes it found gone. Those bikes are recorded MISSING in item order, each where a slot is free, and the holds on
their docks are lost. -/
def Obligations.CensusCorrectsListedDocks : Prop :=
  ∀ (s : State) (p : Port) (bytes : List Byte) (req : CensusReq),
    s.takes .census p bytes readCensus req →
      let inScope := fun (d : DockNo) => match req.scope with
        | none => true
        | some k => s.time.config.segmentOf d == some k.val
      let sound := (∀ k, req.scope = some k → k.val < s.time.config.segments.length)
        ∧ (req.items.map (fun x => x.dock)).Nodup
        ∧ ∀ x ∈ req.items, (s.dock x.dock).state ≠ .absent ∧ inScope x.dock = true
            ∧ (x.present = true → x.bike ≠ none) ∧ (x.present = false → x.bike = none ∧ x.tokenPresent = false)
      let gone := req.items.filterMap (fun x => match (s.dock x.dock).state with
        | .docked b | .held b _ | .outOfService (some b) _ => if x.bike = some b.bike then none else some (x.dock, b.bike)
        | .absent | .empty | .unlocking _ _ | .vanHeld _ _ | .vanReserved _ | .outOfService none _ => none)
      let missing := gone.map (fun x => RecordBody.fault x.2 (some x.1) .missing .rail none
        (((s.fault x.2).map (fun e => e.score)).getD 0) (((s.fault x.2).map (fun e => e.quarantined)).getD false))
      let lost := req.items.filterMap (fun x => match (s.dock x.dock).state with
        | .held b h => if x.bike = some b.bike then none else some (x.dock, h)
        | .docked _ | .absent | .empty | .unlocking _ _ | .vanHeld _ _ | .vanReserved _ | .outOfService _ _ => none)
      (¬ sound →
        ∃ t, exec (.census p bytes) s = .next t
          ∧ t.answered p ReqKind.census.code bytes (.refuse .outOfRange none) ∧ t.unchangedBy s p)
      ∧ (sound →
        ∃ t recorded, exec (.census p bytes) s = .next t
          ∧ t.answered p ReqKind.census.code bytes (.accept (.census req.items.length gone.length))
          ∧ (∀ d, (∀ x ∈ req.items, x.dock ≠ d) → t.dock d = s.dock d)
          ∧ t.faults = s.faults ∧ t.vans = s.vans ∧ t.fares = s.fares ∧ t.time = s.time ∧ t.portsKept s p
          ∧ t.journal.records = s.journal.records ++ (missing.take recorded).zipIdx.map
              (fun x => ⟨s.journal.nextSeq + x.2, s.stamp, x.1⟩)
          ∧ t.journal.reserved = s.journal.reserved
          ∧ (s.journal.nextSeq + missing.length ≤ 4294966272 → recorded = min missing.length s.freeSlots)
          ∧ (s.freeSlots = 0 → recorded = 0)
          ∧ t.rides = (lost.foldl (fun (u : State) x =>
              u.withOutcome x.2.origin (.holdLost .missing) x.2.card x.1) s).rides
          ∧ t.cards = (lost.foldl (fun (u : State) x =>
              u.withCard x.2.card (fun c => { c with holdDock := none })) s).cards
          ∧ (∀ x ∈ lost, t.notified x.2.origin.port .holdLost)
          ∧ ∀ x ∈ req.items,
              let fresh := x.bike.map (fun n => ({ bike := n, since := s.stamp, tokenHeld := x.tokenPresent } : DockedBike))
              let found := match fresh with
                | some b => DockState.docked b
                | none => DockState.empty
              t.dock x.dock =
                ⟨(match (s.dock x.dock).state with
                  | .empty => found
                  | .docked b => if x.bike = some b.bike then .docked b else found
                  | .held b h => if x.bike = some b.bike then .held b h else found
                  | .outOfService (some b) k =>
                    if x.bike = some b.bike then .outOfService (some b) k else .outOfService fresh k
                  | .outOfService none k => .outOfService fresh k
                  | .unlocking b r => .unlocking b r
                  | .vanHeld b n => .vanHeld b n
                  | .vanReserved n => .vanReserved n
                  | .absent => .absent), true⟩)

/-- DOCK_RESTORE (R20): from OUT_OF_SERVICE to DOCKED or EMPTY, unverified, with CENSUS_WANTED at the rail port; any other
state is refused DOCK_STATE. -/
def Obligations.DockRestoreReturnsDock : Prop :=
  ∀ (s : State) (p : Port) (bytes : List Byte) (d : DockNo),
    s.takes .dockRestore p bytes readDock d →
      ((∀ b k, (s.dock d).state ≠ .outOfService b k) →
        ∃ t, exec (.dockRestore p bytes) s = .next t
          ∧ t.answered p ReqKind.dockRestore.code bytes (.refuse .dockState none) ∧ t.unchangedBy s p)
      ∧ ∀ b k, (s.dock d).state = .outOfService b k →
          ∃ t, exec (.dockRestore p bytes) s = .next t
            ∧ t.answered p ReqKind.dockRestore.code bytes (.accept .nothing) ∧ t.portsKept s p
            ∧ t.notified .rail .censusWanted
            ∧ t.endsAs (s.withDock d
                ⟨(match b with
                  | some x => DockState.docked x
                  | none => DockState.empty), false⟩) p

/-! ## Holds of the part and resets -/

/-- RESET_HOLD, RETENTION_LOSS, SELECT_DURING_HOLD and SPOILED_TRANSFER_END (R162, R166, R177, R180): the hold releases every
attention line and spoils the transfers under way; during it the retention flag may be lost and a select spoils its
transfer; a spoiled transfer's release makes its port QUIET. No record of the station changes. Out of their setting the
last three change nothing (log 8). That the hold drops the handed ticks (log 10) and that data out stays (log 16) is the
model's choice. -/
def Obligations.HoldEvents : Prop :=
  (∀ (s : State) (cause : HoldCause) (underWay : List Port),
    ∃ t, exec (.resetHold cause underWay) s = .next t ∧ t.held = true
      ∧ t = { s with time := t.time, ports := t.ports }
      ∧ t.time = { s.time with resetInput := t.time.resetInput, mainLow := t.time.mainLow,
                               handed := ⟨false, false, false, false⟩ }
      ∧ ∀ q, t.port q = { s.port q with
                          attention := false
                          transfer := if q ∈ underWay then .spoiled else (s.port q).transfer })
  ∧ (∀ s : State, s.held = true → exec .retentionLoss s = .next { s with time := { s.time with retention := false } })
  ∧ (∀ s : State, s.held = false → exec .retentionLoss s = .next s)
  ∧ (∀ (s : State) (p : Port), s.held = true →
      exec (.selectDuringHold p) s = .next (s.setPort p { s.port p with transfer := .spoiled }))
  ∧ (∀ (s : State) (p : Port), s.held = false → exec (.selectDuringHold p) s = .next s)
  ∧ (∀ (s : State) (p : Port), (s.port p).transfer = .spoiled →
      exec (.spoiledTransferEnd p) s = .next (s.setPort p { s.port p with transfer := .quiet }))
  ∧ ∀ (s : State) (p : Port), (s.port p).transfer ≠ .spoiled → exec (.spoiledTransferEnd p) s = .next s

/-- WARM_RESET (R23, R47, R84, R101, R128, R148, R163, R177, R184): leaving the hold with the retention flag set keeps the
records but for the docks' claims and verification, the queue, the holds and releases of cards, the jobs, which append
their JOB_ENDs, the reservations, the link, and the port units. The queue is empty and the cursor kept right after it:
the sweep does not act in this event, which is the model's reading of R23 and R47 against R45 (log 4). Otherwise there is no
such event (log 8). -/
def Obligations.WarmResetKeepsRecords : Prop :=
  (∀ s : State, (s.held = false ∨ s.time.retention = false) → exec .warmReset s = .next s)
  ∧ ∀ s : State, s.held = true → s.time.retention = true →
      ∃ t ends, exec .warmReset s = .next t ∧ t.held = false
        ∧ (∀ d, t.dock d = ⟨(match (s.dock d).state with
            | .unlocking b _ => DockState.docked b
            | .held b _ => .docked b
            | .vanHeld b _ => .docked b
            | .vanReserved _ => .empty
            | .absent => .absent
            | .empty => .empty
            | .docked b => .docked b
            | .outOfService b k => .outOfService b k), false⟩)
        ∧ t.rail.queue = [] ∧ t.rail.opens = [] ∧ t.rail.awaited = none ∧ t.rail.cursor = s.rail.cursor
        ∧ t.rides = { s.rides with terminalOutcomes := [], uplinkOutcomes := [] }
        ∧ t.fares = s.fares ∧ t.faults = s.faults
        ∧ t.cards = s.cards.map (fun c => { c with inFlight := none, holdDock := none })
        ∧ (∀ k, t.job k = none) ∧ (∀ k : Fin 8, t.vans.claims[k] = none) ∧ t.vans.nextJob = s.vans.nextJob
        ∧ t.journal.records = s.journal.records ++ ends
        ∧ (ends.map (fun r : Record => r.body)) = (((List.finRange 4).filterMap s.job).filter (fun j => j.state ≠ .ended)).map
            (fun j => .jobEnd { number := j.number, kind := j.kind, origin := j.origin,
                                conditions := { j.conditions with aborted := true, reset := true },
                                requested := j.requested, position := j.position, mismatch := j.mismatch,
                                moved := j.moved })
        ∧ t.journal.nextSeq = s.journal.nextSeq + ends.length ∧ t.journal.marker = s.journal.marker
        ∧ t.journal.reserved = 0 ∧ t.journal.mode = modeOfFree t.freeSlots
        ∧ t.time.clock = s.time.clock ∧ t.time.clockValid = s.time.clockValid ∧ t.time.config = s.time.config
        ∧ t.time.stationMode = s.time.stationMode ∧ t.time.link = .offline
        ∧ t.time.staleTimer = s.time.config.stalePeriod ∧ t.time.retention = true
        ∧ ∀ q, (t.port q).slot = none ∧ (t.port q).attention = true
            ∧ (t.port q).transfer = (if (s.port q).transfer = .spoiled then .spoiled else .quiet)
            ∧ ∀ k : Notice, (t.port q).enableSet.has k = true
                ∧ (t.notified q k ↔ k = .resetSeen ∨ (q = .rail ∧ k = .censusWanted))

/-- COLD_RESET and FACTORY_CLEAR (R162 to R164, R177, R178, R184): every record takes its cold-reset value; FACTORY_CLEAR
keeps the clock and the retention flag, answers ACCEPT with the clock at the uplink port, and does not restart the link. A
cold reset with the retention flag set, or out of the hold, is no event (log 8). The model's choices in these clauses: both
events clear the handed ticks (log 10), leave the ring's first slot at 1 (log 11) and keep the commands that wait outside the
part; the cold reset keeps each port's data out (log 16), of which the FACTORY_CLEAR clause says nothing. -/
def Obligations.ColdResetAndFactoryClear : Prop :=
  (∀ s : State, (s.held = false ∨ s.time.retention = true) → exec .coldReset s = .next s)
  ∧ (∀ s : State, s.held = true → s.time.retention = false →
      ∃ t, exec .coldReset s = .next t
        ∧ t = { State.reset with pending := s.pending, ports := t.ports }
        ∧ ∀ q, t.port q = { State.reset.port q with
                            transfer := if (s.port q).transfer = .spoiled then .spoiled else .quiet
                            dataOut := (s.port q).dataOut })
  ∧ ∀ (s : State) (p : Port) (bytes : List Byte), s.takes .factoryClear p bytes readEmpty () →
      ∃ t, exec (.factoryClear p bytes) s = .next t
        ∧ t.answered p ReqKind.factoryClear.code bytes (.accept (.cleared s.time.clock s.time.clockValid))
        ∧ t = { State.reset with
                pending := s.pending
                time := { State.reset.time with clock := s.time.clock, clockValid := s.time.clockValid,
                                                retention := s.time.retention }
                ports := t.ports }
        ∧ ∀ q, (t.port q).attention = true ∧ (t.port q).pendingSet = (State.reset.port q).pendingSet
            ∧ (t.port q).enableSet = (State.reset.port q).enableSet
            ∧ (q ≠ p → (t.port q).slot = none ∧ (t.port q).transfer = (s.port q).transfer)

/-! ## Invariants of every step -/

/-- Every invariant below holds right after a cold reset. -/
def Obligations.InvariantsHoldAtReset : Prop :=
  State.reset.journal.consecutive ∧ State.reset.journal.modeRight ∧ State.reset.journal.chargesBounded
    ∧ State.reset.cardsOrdered ∧ State.reset.balancesInRange ∧ State.reset.countsAgree ∧ State.reset.faultsOrdered
    ∧ State.reset.railBounded ∧ State.reset.custody ∧ State.reset.rides.bounded ∧ State.reset.linesRight
    ∧ State.reset.heldSound ∧ State.reset.jobsSound ∧ State.reset.reservationsRight ∧ State.reset.journal.withinRing

/-- Law 12 (R133): the held sequence numbers stay consecutive above the marker. Law 7 (R60): every held RIDE_END's charge
stays at most 60,000 and at least its base charged. -/
def Obligations.StepKeepsJournalLaws : Prop :=
  (∀ s t : State, s.journal.consecutive → step s = .next t → t.journal.consecutive)
  ∧ (∀ s t : State, s.journal.chargesBounded → step s = .next t → t.journal.chargesBounded)

/-- The journal mode is the one the free-slot count gives: RESERVE to 128, TIGHT to 256, NORMAL above (R136). In a station
whose jobs are sound, the reservation count stays that of the UNLOCKING docks and the open jobs (R134), and with it and the
mode right, held and reserved slots stay within the ring (Law 1, R135). -/
def Obligations.StepKeepsModeRight : Prop :=
  (∀ n : Nat, (n ≤ 128 → modeOfFree n = .reserve) ∧ (129 ≤ n → n ≤ 256 → modeOfFree n = .tight)
      ∧ (257 ≤ n → modeOfFree n = .normal))
  ∧ (∀ s t : State, s.journal.modeRight → step s = .next t → t.journal.modeRight)
  ∧ (∀ s t : State, s.jobsSound → s.reservationsRight → step s = .next t → t.reservationsRight)
  ∧ ∀ s t : State, s.jobsSound → s.reservationsRight → s.journal.modeRight → s.journal.withinRing → step s = .next t →
      t.journal.withinRing

/-- The card table has no card twice, stands in order and within its size (R65), and every balance lies in its range
(Law 6, R72). -/
def Obligations.StepKeepsCardTable : Prop :=
  ∀ s t : State, s.cardsOrdered → s.balancesInRange → step s = .next t → t.cardsOrdered ∧ t.balancesInRange

/-- Law 4 (R68). -/
def Obligations.StepKeepsReferenceCounts : Prop :=
  ∀ s t : State, s.countsAgree → step s = .next t → t.countsAgree

/-- The fault table has no bike twice, stands in order and within its size, and its scores and lists in their ranges
(R85). -/
def Obligations.StepKeepsFaultTable : Prop :=
  ∀ s t : State, s.faultsOrdered → step s = .next t → t.faultsOrdered

/-- Law 2 (R6). Law 10 (R106) with the van job table and the segment claim map (R102 to R104): every VAN_HELD or VAN_RESERVED
dock belongs to one open job whose claim contains it, and the claims of open jobs never overlap. -/
def Obligations.StepKeepsRailBounded : Prop :=
  (∀ s t : State, s.railBounded → step s = .next t → t.railBounded)
  ∧ ∀ s t : State, s.jobsSound → step s = .next t → t.jobsSound

/-- Laws 3 and 11 with R1: every release and hold belongs to one card and one dock, at most 8 docks are HELD, and the docks
beyond N are ABSENT. Law 9 for holds (R36, R39): every HELD dock stays verified and not token-held, its bike not
quarantined. -/
def Obligations.StepKeepsCustody : Prop :=
  (∀ s t : State, s.custody → step s = .next t → t.custody)
  ∧ ∀ s t : State, s.heldSound → step s = .next t → t.heldSound

/-- The settled-ride list never holds a pair twice (R43), and it, the outcome lists and the next ride number keep their
bounds (R24). -/
def Obligations.StepKeepsRides : Prop := ∀ s t : State, s.rides.bounded → step s = .next t → t.rides.bounded

/-- The attention lines follow the pending and enable sets, and are released while the part is held (R180). -/
def Obligations.StepKeepsLines : Prop := ∀ s t : State, s.linesRight → step s = .next t → t.linesRight

end Statements
end

