-- ==== Sys2Proof/Laws/State.lean ====
section
/-! SUPPORT. What each shared update leaves as it was: one lemma per update and field of the state, so that no proof
unfolds a record update, and the lemmas of the reads: docks, cards, ports. -/

namespace Sys2Proof.Machine.Laws

/-! ## A read depends on its field alone -/

theorem dock_congr {s t : State} (h : t.rail = s.rail) (d : DockNo) : t.dock d = s.dock d := by
  simp only [State.dock, h]

theorem card_congr {s t : State} (h : t.cards = s.cards) (n : Nat) : t.card n = s.card n := by
  simp only [State.card, h]

theorem fault_congr {s t : State} (h : t.faults = s.faults) (b : Nat) : t.fault b = s.fault b := by
  simp only [State.fault, h]

theorem job_congr {s t : State} (h : t.vans = s.vans) (i : SlotNo) : t.job i = s.job i := by
  simp only [State.job, h]

theorem port_congr {s t : State} (h : t.ports = s.ports) (p : Port) : t.port p = s.port p := by
  simp only [State.port, h]

theorem held_congr {s t : State} (h : t.time = s.time) : t.held = s.held := by
  simp only [State.held, h]

theorem stamp_congr {s t : State} (h : t.time = s.time) : t.stamp = s.stamp := by
  simp only [State.stamp, h]

theorem freeSlots_congr {s t : State} (h : t.journal = s.journal) : t.freeSlots = s.freeSlots := by
  simp only [State.freeSlots, h]

/-! ## What each update leaves as it was -/

/-! ### setPort -/

@[simp] theorem setPort_pending (s : State) (p : Port) (x : PortUnit) : (s.setPort p x).pending = s.pending :=
  rfl
@[simp] theorem setPort_rail (s : State) (p : Port) (x : PortUnit) : (s.setPort p x).rail = s.rail := rfl
@[simp] theorem setPort_rides (s : State) (p : Port) (x : PortUnit) : (s.setPort p x).rides = s.rides := rfl
@[simp] theorem setPort_fares (s : State) (p : Port) (x : PortUnit) : (s.setPort p x).fares = s.fares := rfl
@[simp] theorem setPort_cards (s : State) (p : Port) (x : PortUnit) : (s.setPort p x).cards = s.cards := rfl
@[simp] theorem setPort_faults (s : State) (p : Port) (x : PortUnit) : (s.setPort p x).faults = s.faults :=
  rfl
@[simp] theorem setPort_vans (s : State) (p : Port) (x : PortUnit) : (s.setPort p x).vans = s.vans := rfl
@[simp] theorem setPort_journal (s : State) (p : Port) (x : PortUnit) : (s.setPort p x).journal = s.journal :=
  rfl
@[simp] theorem setPort_time (s : State) (p : Port) (x : PortUnit) : (s.setPort p x).time = s.time := rfl

@[simp] theorem setPort_dock (s : State) (p : Port) (x : PortUnit) (e : DockNo) : (s.setPort p x).dock e = s.dock e :=
  dock_congr (setPort_rail ..) e
@[simp] theorem setPort_card (s : State) (p : Port) (x : PortUnit) (m : Nat) : (s.setPort p x).card m = s.card m :=
  card_congr (setPort_cards ..) m
@[simp] theorem setPort_held (s : State) (p : Port) (x : PortUnit) : (s.setPort p x).held = s.held :=
  held_congr (setPort_time ..)

/-! ### notify -/

@[simp] theorem notify_pending (s : State) (p : Port) (k : Notice) : (s.notify p k).pending = s.pending := rfl
@[simp] theorem notify_rail (s : State) (p : Port) (k : Notice) : (s.notify p k).rail = s.rail := rfl
@[simp] theorem notify_rides (s : State) (p : Port) (k : Notice) : (s.notify p k).rides = s.rides := rfl
@[simp] theorem notify_fares (s : State) (p : Port) (k : Notice) : (s.notify p k).fares = s.fares := rfl
@[simp] theorem notify_cards (s : State) (p : Port) (k : Notice) : (s.notify p k).cards = s.cards := rfl
@[simp] theorem notify_faults (s : State) (p : Port) (k : Notice) : (s.notify p k).faults = s.faults := rfl
@[simp] theorem notify_vans (s : State) (p : Port) (k : Notice) : (s.notify p k).vans = s.vans := rfl
@[simp] theorem notify_journal (s : State) (p : Port) (k : Notice) : (s.notify p k).journal = s.journal := rfl
@[simp] theorem notify_time (s : State) (p : Port) (k : Notice) : (s.notify p k).time = s.time := rfl

@[simp] theorem notify_dock (s : State) (p : Port) (k : Notice) (e : DockNo) : (s.notify p k).dock e = s.dock e :=
  dock_congr (notify_rail ..) e
@[simp] theorem notify_card (s : State) (p : Port) (k : Notice) (m : Nat) : (s.notify p k).card m = s.card m :=
  card_congr (notify_cards ..) m
@[simp] theorem notify_held (s : State) (p : Port) (k : Notice) : (s.notify p k).held = s.held :=
  held_congr (notify_time ..)

/-! ### outcome -/

@[simp] theorem outcome_pending (s : State) (p : RiderPort) (kind : OutcomeKind) (card : Nat) (d : DockNo) :
    (s.outcome p kind card d).pending = s.pending :=
  by cases p <;> rfl
@[simp] theorem outcome_rail (s : State) (p : RiderPort) (kind : OutcomeKind) (card : Nat) (d : DockNo) :
    (s.outcome p kind card d).rail = s.rail :=
  by cases p <;> rfl
@[simp] theorem outcome_fares (s : State) (p : RiderPort) (kind : OutcomeKind) (card : Nat) (d : DockNo) :
    (s.outcome p kind card d).fares = s.fares :=
  by cases p <;> rfl
@[simp] theorem outcome_cards (s : State) (p : RiderPort) (kind : OutcomeKind) (card : Nat) (d : DockNo) :
    (s.outcome p kind card d).cards = s.cards :=
  by cases p <;> rfl
@[simp] theorem outcome_faults (s : State) (p : RiderPort) (kind : OutcomeKind) (card : Nat) (d : DockNo) :
    (s.outcome p kind card d).faults = s.faults :=
  by cases p <;> rfl
@[simp] theorem outcome_vans (s : State) (p : RiderPort) (kind : OutcomeKind) (card : Nat) (d : DockNo) :
    (s.outcome p kind card d).vans = s.vans :=
  by cases p <;> rfl
@[simp] theorem outcome_journal (s : State) (p : RiderPort) (kind : OutcomeKind) (card : Nat) (d : DockNo) :
    (s.outcome p kind card d).journal = s.journal :=
  by cases p <;> rfl
@[simp] theorem outcome_time (s : State) (p : RiderPort) (kind : OutcomeKind) (card : Nat) (d : DockNo) :
    (s.outcome p kind card d).time = s.time :=
  by cases p <;> rfl

@[simp] theorem outcome_dock (s : State) (p : RiderPort) (kind : OutcomeKind) (card : Nat) (d : DockNo)
    (e : DockNo) : (s.outcome p kind card d).dock e = s.dock e :=
  dock_congr (outcome_rail ..) e
@[simp] theorem outcome_card (s : State) (p : RiderPort) (kind : OutcomeKind) (card : Nat) (d : DockNo)
    (m : Nat) : (s.outcome p kind card d).card m = s.card m :=
  card_congr (outcome_cards ..) m
@[simp] theorem outcome_held (s : State) (p : RiderPort) (kind : OutcomeKind) (card : Nat) (d : DockNo) :
    (s.outcome p kind card d).held = s.held :=
  held_congr (outcome_time ..)

/-! ### modifyCard -/

@[simp] theorem modifyCard_pending (s : State) (n : Nat) (f : CardEntry → CardEntry) :
    (s.modifyCard n f).pending = s.pending :=
  rfl
@[simp] theorem modifyCard_rail (s : State) (n : Nat) (f : CardEntry → CardEntry) :
    (s.modifyCard n f).rail = s.rail :=
  rfl
@[simp] theorem modifyCard_rides (s : State) (n : Nat) (f : CardEntry → CardEntry) :
    (s.modifyCard n f).rides = s.rides :=
  rfl
@[simp] theorem modifyCard_fares (s : State) (n : Nat) (f : CardEntry → CardEntry) :
    (s.modifyCard n f).fares = s.fares :=
  rfl
@[simp] theorem modifyCard_faults (s : State) (n : Nat) (f : CardEntry → CardEntry) :
    (s.modifyCard n f).faults = s.faults :=
  rfl
@[simp] theorem modifyCard_vans (s : State) (n : Nat) (f : CardEntry → CardEntry) :
    (s.modifyCard n f).vans = s.vans :=
  rfl
@[simp] theorem modifyCard_journal (s : State) (n : Nat) (f : CardEntry → CardEntry) :
    (s.modifyCard n f).journal = s.journal :=
  rfl
@[simp] theorem modifyCard_time (s : State) (n : Nat) (f : CardEntry → CardEntry) :
    (s.modifyCard n f).time = s.time :=
  rfl
@[simp] theorem modifyCard_ports (s : State) (n : Nat) (f : CardEntry → CardEntry) :
    (s.modifyCard n f).ports = s.ports :=
  rfl

@[simp] theorem modifyCard_dock (s : State) (n : Nat) (f : CardEntry → CardEntry) (e : DockNo) :
    (s.modifyCard n f).dock e = s.dock e :=
  dock_congr (modifyCard_rail ..) e
@[simp] theorem modifyCard_held (s : State) (n : Nat) (f : CardEntry → CardEntry) :
    (s.modifyCard n f).held = s.held :=
  held_congr (modifyCard_time ..)

/-! ### append -/

@[simp] theorem append_pending (s : State) (body : RecordBody) : (s.append body).pending = s.pending := rfl
@[simp] theorem append_rail (s : State) (body : RecordBody) : (s.append body).rail = s.rail := rfl
@[simp] theorem append_rides (s : State) (body : RecordBody) : (s.append body).rides = s.rides := rfl
@[simp] theorem append_fares (s : State) (body : RecordBody) : (s.append body).fares = s.fares := rfl
@[simp] theorem append_faults (s : State) (body : RecordBody) : (s.append body).faults = s.faults := rfl
@[simp] theorem append_vans (s : State) (body : RecordBody) : (s.append body).vans = s.vans := rfl
@[simp] theorem append_time (s : State) (body : RecordBody) : (s.append body).time = s.time := rfl

@[simp] theorem append_dock (s : State) (body : RecordBody) (e : DockNo) : (s.append body).dock e = s.dock e :=
  dock_congr (append_rail ..) e
@[simp] theorem append_held (s : State) (body : RecordBody) : (s.append body).held = s.held :=
  held_congr (append_time ..)

/-! ### appendIfRoom -/

@[simp] theorem appendIfRoom_pending (s : State) (body : RecordBody) : (s.appendIfRoom body).pending = s.pending :=
  by unfold State.appendIfRoom; split <;> rfl
@[simp] theorem appendIfRoom_rail (s : State) (body : RecordBody) : (s.appendIfRoom body).rail = s.rail :=
  by unfold State.appendIfRoom; split <;> rfl
@[simp] theorem appendIfRoom_rides (s : State) (body : RecordBody) : (s.appendIfRoom body).rides = s.rides :=
  by unfold State.appendIfRoom; split <;> rfl
@[simp] theorem appendIfRoom_fares (s : State) (body : RecordBody) : (s.appendIfRoom body).fares = s.fares :=
  by unfold State.appendIfRoom; split <;> rfl
@[simp] theorem appendIfRoom_faults (s : State) (body : RecordBody) : (s.appendIfRoom body).faults = s.faults :=
  by unfold State.appendIfRoom; split <;> rfl
@[simp] theorem appendIfRoom_vans (s : State) (body : RecordBody) : (s.appendIfRoom body).vans = s.vans :=
  by unfold State.appendIfRoom; split <;> rfl
@[simp] theorem appendIfRoom_time (s : State) (body : RecordBody) : (s.appendIfRoom body).time = s.time :=
  by unfold State.appendIfRoom; split <;> rfl

@[simp] theorem appendIfRoom_dock (s : State) (body : RecordBody) (e : DockNo) :
    (s.appendIfRoom body).dock e = s.dock e :=
  dock_congr (appendIfRoom_rail ..) e
@[simp] theorem appendIfRoom_held (s : State) (body : RecordBody) : (s.appendIfRoom body).held = s.held :=
  held_congr (appendIfRoom_time ..)

/-! ### reserve -/

@[simp] theorem reserve_pending (s : State) (n : Nat) : (s.reserve n).pending = s.pending := rfl
@[simp] theorem reserve_rail (s : State) (n : Nat) : (s.reserve n).rail = s.rail := rfl
@[simp] theorem reserve_rides (s : State) (n : Nat) : (s.reserve n).rides = s.rides := rfl
@[simp] theorem reserve_fares (s : State) (n : Nat) : (s.reserve n).fares = s.fares := rfl
@[simp] theorem reserve_cards (s : State) (n : Nat) : (s.reserve n).cards = s.cards := rfl
@[simp] theorem reserve_faults (s : State) (n : Nat) : (s.reserve n).faults = s.faults := rfl
@[simp] theorem reserve_vans (s : State) (n : Nat) : (s.reserve n).vans = s.vans := rfl
@[simp] theorem reserve_time (s : State) (n : Nat) : (s.reserve n).time = s.time := rfl
@[simp] theorem reserve_ports (s : State) (n : Nat) : (s.reserve n).ports = s.ports := rfl

@[simp] theorem reserve_dock (s : State) (n : Nat) (e : DockNo) : (s.reserve n).dock e = s.dock e :=
  dock_congr (reserve_rail ..) e
@[simp] theorem reserve_card (s : State) (n : Nat) (m : Nat) : (s.reserve n).card m = s.card m :=
  card_congr (reserve_cards ..) m
@[simp] theorem reserve_held (s : State) (n : Nat) : (s.reserve n).held = s.held :=
  held_congr (reserve_time ..)

/-! ### unreserve -/

@[simp] theorem unreserve_pending (s : State) (n : Nat) : (s.unreserve n).pending = s.pending := rfl
@[simp] theorem unreserve_rail (s : State) (n : Nat) : (s.unreserve n).rail = s.rail := rfl
@[simp] theorem unreserve_rides (s : State) (n : Nat) : (s.unreserve n).rides = s.rides := rfl
@[simp] theorem unreserve_fares (s : State) (n : Nat) : (s.unreserve n).fares = s.fares := rfl
@[simp] theorem unreserve_cards (s : State) (n : Nat) : (s.unreserve n).cards = s.cards := rfl
@[simp] theorem unreserve_faults (s : State) (n : Nat) : (s.unreserve n).faults = s.faults := rfl
@[simp] theorem unreserve_vans (s : State) (n : Nat) : (s.unreserve n).vans = s.vans := rfl
@[simp] theorem unreserve_time (s : State) (n : Nat) : (s.unreserve n).time = s.time := rfl
@[simp] theorem unreserve_ports (s : State) (n : Nat) : (s.unreserve n).ports = s.ports := rfl

@[simp] theorem unreserve_dock (s : State) (n : Nat) (e : DockNo) : (s.unreserve n).dock e = s.dock e :=
  dock_congr (unreserve_rail ..) e
@[simp] theorem unreserve_card (s : State) (n : Nat) (m : Nat) : (s.unreserve n).card m = s.card m :=
  card_congr (unreserve_cards ..) m
@[simp] theorem unreserve_held (s : State) (n : Nat) : (s.unreserve n).held = s.held :=
  held_congr (unreserve_time ..)

/-! ### appendReserved -/

@[simp] theorem appendReserved_pending (s : State) (size : Nat) (body : RecordBody) :
    (s.appendReserved size body).pending = s.pending :=
  rfl
@[simp] theorem appendReserved_rail (s : State) (size : Nat) (body : RecordBody) :
    (s.appendReserved size body).rail = s.rail :=
  rfl
@[simp] theorem appendReserved_rides (s : State) (size : Nat) (body : RecordBody) :
    (s.appendReserved size body).rides = s.rides :=
  rfl
@[simp] theorem appendReserved_fares (s : State) (size : Nat) (body : RecordBody) :
    (s.appendReserved size body).fares = s.fares :=
  rfl
@[simp] theorem appendReserved_faults (s : State) (size : Nat) (body : RecordBody) :
    (s.appendReserved size body).faults = s.faults :=
  rfl
@[simp] theorem appendReserved_vans (s : State) (size : Nat) (body : RecordBody) :
    (s.appendReserved size body).vans = s.vans :=
  rfl
@[simp] theorem appendReserved_time (s : State) (size : Nat) (body : RecordBody) :
    (s.appendReserved size body).time = s.time :=
  rfl

@[simp] theorem appendReserved_dock (s : State) (size : Nat) (body : RecordBody) (e : DockNo) :
    (s.appendReserved size body).dock e = s.dock e :=
  dock_congr (appendReserved_rail ..) e
@[simp] theorem appendReserved_held (s : State) (size : Nat) (body : RecordBody) :
    (s.appendReserved size body).held = s.held :=
  held_congr (appendReserved_time ..)

/-! ### pushCommand -/

@[simp] theorem pushCommand_pending (s : State) (c : Command) : (s.pushCommand c).pending = s.pending := rfl
@[simp] theorem pushCommand_rides (s : State) (c : Command) : (s.pushCommand c).rides = s.rides := rfl
@[simp] theorem pushCommand_fares (s : State) (c : Command) : (s.pushCommand c).fares = s.fares := rfl
@[simp] theorem pushCommand_cards (s : State) (c : Command) : (s.pushCommand c).cards = s.cards := rfl
@[simp] theorem pushCommand_faults (s : State) (c : Command) : (s.pushCommand c).faults = s.faults := rfl
@[simp] theorem pushCommand_vans (s : State) (c : Command) : (s.pushCommand c).vans = s.vans := rfl
@[simp] theorem pushCommand_journal (s : State) (c : Command) : (s.pushCommand c).journal = s.journal := rfl
@[simp] theorem pushCommand_time (s : State) (c : Command) : (s.pushCommand c).time = s.time := rfl

@[simp] theorem pushCommand_card (s : State) (c : Command) (m : Nat) : (s.pushCommand c).card m = s.card m :=
  card_congr (pushCommand_cards ..) m
@[simp] theorem pushCommand_held (s : State) (c : Command) : (s.pushCommand c).held = s.held :=
  held_congr (pushCommand_time ..)

/-! ### resolveDock -/

@[simp] theorem resolveDock_pending (s : State) (o : OpenOwner) (d : DockNo) :
    (s.resolveDock o d).pending = s.pending :=
  rfl
@[simp] theorem resolveDock_rides (s : State) (o : OpenOwner) (d : DockNo) : (s.resolveDock o d).rides = s.rides :=
  rfl
@[simp] theorem resolveDock_fares (s : State) (o : OpenOwner) (d : DockNo) : (s.resolveDock o d).fares = s.fares :=
  rfl
@[simp] theorem resolveDock_cards (s : State) (o : OpenOwner) (d : DockNo) : (s.resolveDock o d).cards = s.cards :=
  rfl
@[simp] theorem resolveDock_faults (s : State) (o : OpenOwner) (d : DockNo) : (s.resolveDock o d).faults = s.faults :=
  rfl
@[simp] theorem resolveDock_vans (s : State) (o : OpenOwner) (d : DockNo) : (s.resolveDock o d).vans = s.vans :=
  rfl
@[simp] theorem resolveDock_journal (s : State) (o : OpenOwner) (d : DockNo) :
    (s.resolveDock o d).journal = s.journal :=
  rfl
@[simp] theorem resolveDock_time (s : State) (o : OpenOwner) (d : DockNo) : (s.resolveDock o d).time = s.time :=
  rfl
@[simp] theorem resolveDock_ports (s : State) (o : OpenOwner) (d : DockNo) : (s.resolveDock o d).ports = s.ports :=
  rfl

@[simp] theorem resolveDock_card (s : State) (o : OpenOwner) (d : DockNo) (m : Nat) :
    (s.resolveDock o d).card m = s.card m :=
  card_congr (resolveDock_cards ..) m
@[simp] theorem resolveDock_held (s : State) (o : OpenOwner) (d : DockNo) : (s.resolveDock o d).held = s.held :=
  held_congr (resolveDock_time ..)

/-! ### dropRelock -/

@[simp] theorem dropRelock_pending (s : State) (d : DockNo) : (s.dropRelock d).pending = s.pending := rfl
@[simp] theorem dropRelock_rides (s : State) (d : DockNo) : (s.dropRelock d).rides = s.rides := rfl
@[simp] theorem dropRelock_fares (s : State) (d : DockNo) : (s.dropRelock d).fares = s.fares := rfl
@[simp] theorem dropRelock_cards (s : State) (d : DockNo) : (s.dropRelock d).cards = s.cards := rfl
@[simp] theorem dropRelock_faults (s : State) (d : DockNo) : (s.dropRelock d).faults = s.faults := rfl
@[simp] theorem dropRelock_vans (s : State) (d : DockNo) : (s.dropRelock d).vans = s.vans := rfl
@[simp] theorem dropRelock_journal (s : State) (d : DockNo) : (s.dropRelock d).journal = s.journal := rfl
@[simp] theorem dropRelock_time (s : State) (d : DockNo) : (s.dropRelock d).time = s.time := rfl
@[simp] theorem dropRelock_ports (s : State) (d : DockNo) : (s.dropRelock d).ports = s.ports := rfl

@[simp] theorem dropRelock_card (s : State) (d : DockNo) (m : Nat) : (s.dropRelock d).card m = s.card m :=
  card_congr (dropRelock_cards ..) m
@[simp] theorem dropRelock_held (s : State) (d : DockNo) : (s.dropRelock d).held = s.held :=
  held_congr (dropRelock_time ..)

/-! ### giveUp -/

@[simp] theorem giveUp_pending (s : State) (o : OpenOwner) (fetched : Bool) :
    (s.giveUp o fetched).pending = s.pending :=
  by unfold State.giveUp; split <;> [split <;> rfl; rfl]
@[simp] theorem giveUp_rides (s : State) (o : OpenOwner) (fetched : Bool) : (s.giveUp o fetched).rides = s.rides :=
  by unfold State.giveUp; split <;> [split <;> rfl; rfl]
@[simp] theorem giveUp_fares (s : State) (o : OpenOwner) (fetched : Bool) : (s.giveUp o fetched).fares = s.fares :=
  by unfold State.giveUp; split <;> [split <;> rfl; rfl]
@[simp] theorem giveUp_cards (s : State) (o : OpenOwner) (fetched : Bool) : (s.giveUp o fetched).cards = s.cards :=
  by unfold State.giveUp; split <;> [split <;> rfl; rfl]
@[simp] theorem giveUp_faults (s : State) (o : OpenOwner) (fetched : Bool) : (s.giveUp o fetched).faults = s.faults :=
  by unfold State.giveUp; split <;> [split <;> rfl; rfl]
@[simp] theorem giveUp_vans (s : State) (o : OpenOwner) (fetched : Bool) : (s.giveUp o fetched).vans = s.vans :=
  by unfold State.giveUp; split <;> [split <;> rfl; rfl]
@[simp] theorem giveUp_journal (s : State) (o : OpenOwner) (fetched : Bool) :
    (s.giveUp o fetched).journal = s.journal :=
  by unfold State.giveUp; split <;> [split <;> rfl; rfl]
@[simp] theorem giveUp_time (s : State) (o : OpenOwner) (fetched : Bool) : (s.giveUp o fetched).time = s.time :=
  by unfold State.giveUp; split <;> [split <;> rfl; rfl]

@[simp] theorem giveUp_card (s : State) (o : OpenOwner) (fetched : Bool) (m : Nat) :
    (s.giveUp o fetched).card m = s.card m :=
  card_congr (giveUp_cards ..) m
@[simp] theorem giveUp_held (s : State) (o : OpenOwner) (fetched : Bool) : (s.giveUp o fetched).held = s.held :=
  held_congr (giveUp_time ..)

/-! ### putDock -/

@[simp] theorem putDock_pending (s : State) (d : DockNo) (x : Dock) : (s.putDock d x).pending = s.pending :=
  rfl
@[simp] theorem putDock_rides (s : State) (d : DockNo) (x : Dock) : (s.putDock d x).rides = s.rides := rfl
@[simp] theorem putDock_fares (s : State) (d : DockNo) (x : Dock) : (s.putDock d x).fares = s.fares := rfl
@[simp] theorem putDock_cards (s : State) (d : DockNo) (x : Dock) : (s.putDock d x).cards = s.cards := rfl
@[simp] theorem putDock_faults (s : State) (d : DockNo) (x : Dock) : (s.putDock d x).faults = s.faults := rfl
@[simp] theorem putDock_vans (s : State) (d : DockNo) (x : Dock) : (s.putDock d x).vans = s.vans := rfl
@[simp] theorem putDock_journal (s : State) (d : DockNo) (x : Dock) : (s.putDock d x).journal = s.journal :=
  rfl
@[simp] theorem putDock_time (s : State) (d : DockNo) (x : Dock) : (s.putDock d x).time = s.time := rfl
@[simp] theorem putDock_ports (s : State) (d : DockNo) (x : Dock) : (s.putDock d x).ports = s.ports := rfl

@[simp] theorem putDock_card (s : State) (d : DockNo) (x : Dock) (m : Nat) : (s.putDock d x).card m = s.card m :=
  card_congr (putDock_cards ..) m
@[simp] theorem putDock_held (s : State) (d : DockNo) (x : Dock) : (s.putDock d x).held = s.held :=
  held_congr (putDock_time ..)

/-! ### putDockState -/

@[simp] theorem putDockState_pending (s : State) (d : DockNo) (st : DockState) :
    (s.putDockState d st).pending = s.pending :=
  rfl
@[simp] theorem putDockState_rides (s : State) (d : DockNo) (st : DockState) :
    (s.putDockState d st).rides = s.rides :=
  rfl
@[simp] theorem putDockState_fares (s : State) (d : DockNo) (st : DockState) :
    (s.putDockState d st).fares = s.fares :=
  rfl
@[simp] theorem putDockState_cards (s : State) (d : DockNo) (st : DockState) :
    (s.putDockState d st).cards = s.cards :=
  rfl
@[simp] theorem putDockState_faults (s : State) (d : DockNo) (st : DockState) :
    (s.putDockState d st).faults = s.faults :=
  rfl
@[simp] theorem putDockState_vans (s : State) (d : DockNo) (st : DockState) : (s.putDockState d st).vans = s.vans :=
  rfl
@[simp] theorem putDockState_journal (s : State) (d : DockNo) (st : DockState) :
    (s.putDockState d st).journal = s.journal :=
  rfl
@[simp] theorem putDockState_time (s : State) (d : DockNo) (st : DockState) : (s.putDockState d st).time = s.time :=
  rfl
@[simp] theorem putDockState_ports (s : State) (d : DockNo) (st : DockState) :
    (s.putDockState d st).ports = s.ports :=
  rfl

@[simp] theorem putDockState_card (s : State) (d : DockNo) (st : DockState) (m : Nat) :
    (s.putDockState d st).card m = s.card m :=
  card_congr (putDockState_cards ..) m
@[simp] theorem putDockState_held (s : State) (d : DockNo) (st : DockState) : (s.putDockState d st).held = s.held :=
  held_congr (putDockState_time ..)

/-! ### setJob -/

@[simp] theorem setJob_pending (s : State) (i : SlotNo) (j : Option JobRecord) : (s.setJob i j).pending = s.pending :=
  rfl
@[simp] theorem setJob_rail (s : State) (i : SlotNo) (j : Option JobRecord) : (s.setJob i j).rail = s.rail :=
  rfl
@[simp] theorem setJob_rides (s : State) (i : SlotNo) (j : Option JobRecord) : (s.setJob i j).rides = s.rides :=
  rfl
@[simp] theorem setJob_fares (s : State) (i : SlotNo) (j : Option JobRecord) : (s.setJob i j).fares = s.fares :=
  rfl
@[simp] theorem setJob_cards (s : State) (i : SlotNo) (j : Option JobRecord) : (s.setJob i j).cards = s.cards :=
  rfl
@[simp] theorem setJob_faults (s : State) (i : SlotNo) (j : Option JobRecord) : (s.setJob i j).faults = s.faults :=
  rfl
@[simp] theorem setJob_journal (s : State) (i : SlotNo) (j : Option JobRecord) : (s.setJob i j).journal = s.journal :=
  rfl
@[simp] theorem setJob_time (s : State) (i : SlotNo) (j : Option JobRecord) : (s.setJob i j).time = s.time :=
  rfl
@[simp] theorem setJob_ports (s : State) (i : SlotNo) (j : Option JobRecord) : (s.setJob i j).ports = s.ports :=
  rfl

@[simp] theorem setJob_dock (s : State) (i : SlotNo) (j : Option JobRecord) (e : DockNo) :
    (s.setJob i j).dock e = s.dock e :=
  dock_congr (setJob_rail ..) e
@[simp] theorem setJob_card (s : State) (i : SlotNo) (j : Option JobRecord) (m : Nat) :
    (s.setJob i j).card m = s.card m :=
  card_congr (setJob_cards ..) m
@[simp] theorem setJob_held (s : State) (i : SlotNo) (j : Option JobRecord) : (s.setJob i j).held = s.held :=
  held_congr (setJob_time ..)

/-! ### reckonMode -/

@[simp] theorem reckonMode_pending (s : State) (b : State) : (s.reckonMode b).pending = s.pending :=
  by unfold State.reckonMode; split <;> [rfl; (dsimp only; split <;> rfl)]
@[simp] theorem reckonMode_rail (s : State) (b : State) : (s.reckonMode b).rail = s.rail :=
  by unfold State.reckonMode; split <;> [rfl; (dsimp only; split <;> rfl)]
@[simp] theorem reckonMode_rides (s : State) (b : State) : (s.reckonMode b).rides = s.rides :=
  by unfold State.reckonMode; split <;> [rfl; (dsimp only; split <;> rfl)]
@[simp] theorem reckonMode_fares (s : State) (b : State) : (s.reckonMode b).fares = s.fares :=
  by unfold State.reckonMode; split <;> [rfl; (dsimp only; split <;> rfl)]
@[simp] theorem reckonMode_cards (s : State) (b : State) : (s.reckonMode b).cards = s.cards :=
  by unfold State.reckonMode; split <;> [rfl; (dsimp only; split <;> rfl)]
@[simp] theorem reckonMode_faults (s : State) (b : State) : (s.reckonMode b).faults = s.faults :=
  by unfold State.reckonMode; split <;> [rfl; (dsimp only; split <;> rfl)]
@[simp] theorem reckonMode_vans (s : State) (b : State) : (s.reckonMode b).vans = s.vans :=
  by unfold State.reckonMode; split <;> [rfl; (dsimp only; split <;> rfl)]
@[simp] theorem reckonMode_time (s : State) (b : State) : (s.reckonMode b).time = s.time :=
  by unfold State.reckonMode; split <;> [rfl; (dsimp only; split <;> rfl)]

@[simp] theorem reckonMode_dock (s : State) (b : State) (e : DockNo) : (s.reckonMode b).dock e = s.dock e :=
  dock_congr (reckonMode_rail ..) e
@[simp] theorem reckonMode_card (s : State) (b : State) (m : Nat) : (s.reckonMode b).card m = s.card m :=
  card_congr (reckonMode_cards ..) m
@[simp] theorem reckonMode_held (s : State) (b : State) : (s.reckonMode b).held = s.held :=
  held_congr (reckonMode_time ..)

/-! ### sweep -/

@[simp] theorem sweep_pending (s : State) : (s.sweep).pending = s.pending :=
  by unfold State.sweep; split <;> rfl
@[simp] theorem sweep_rides (s : State) : (s.sweep).rides = s.rides := by unfold State.sweep; split <;> rfl
@[simp] theorem sweep_fares (s : State) : (s.sweep).fares = s.fares := by unfold State.sweep; split <;> rfl
@[simp] theorem sweep_cards (s : State) : (s.sweep).cards = s.cards := by unfold State.sweep; split <;> rfl
@[simp] theorem sweep_faults (s : State) : (s.sweep).faults = s.faults := by unfold State.sweep; split <;> rfl
@[simp] theorem sweep_vans (s : State) : (s.sweep).vans = s.vans := by unfold State.sweep; split <;> rfl
@[simp] theorem sweep_journal (s : State) : (s.sweep).journal = s.journal :=
  by unfold State.sweep; split <;> rfl
@[simp] theorem sweep_time (s : State) : (s.sweep).time = s.time := by unfold State.sweep; split <;> rfl

@[simp] theorem sweep_card (s : State) (m : Nat) : (s.sweep).card m = s.card m :=
  card_congr (sweep_cards ..) m
@[simp] theorem sweep_held (s : State)  : (s.sweep).held = s.held :=
  held_congr (sweep_time ..)

/-! ### reckonLines -/

@[simp] theorem reckonLines_pending (s : State) (b : State) : (s.reckonLines b).pending = s.pending := rfl
@[simp] theorem reckonLines_rail (s : State) (b : State) : (s.reckonLines b).rail = s.rail := rfl
@[simp] theorem reckonLines_rides (s : State) (b : State) : (s.reckonLines b).rides = s.rides := rfl
@[simp] theorem reckonLines_fares (s : State) (b : State) : (s.reckonLines b).fares = s.fares := rfl
@[simp] theorem reckonLines_cards (s : State) (b : State) : (s.reckonLines b).cards = s.cards := rfl
@[simp] theorem reckonLines_faults (s : State) (b : State) : (s.reckonLines b).faults = s.faults := rfl
@[simp] theorem reckonLines_vans (s : State) (b : State) : (s.reckonLines b).vans = s.vans := rfl
@[simp] theorem reckonLines_journal (s : State) (b : State) : (s.reckonLines b).journal = s.journal := rfl
@[simp] theorem reckonLines_time (s : State) (b : State) : (s.reckonLines b).time = s.time := rfl

@[simp] theorem reckonLines_dock (s : State) (b : State) (e : DockNo) : (s.reckonLines b).dock e = s.dock e :=
  dock_congr (reckonLines_rail ..) e
@[simp] theorem reckonLines_card (s : State) (b : State) (m : Nat) : (s.reckonLines b).card m = s.card m :=
  card_congr (reckonLines_cards ..) m
@[simp] theorem reckonLines_held (s : State) (b : State) : (s.reckonLines b).held = s.held :=
  held_congr (reckonLines_time ..)

/-! ### closeEvent -/

@[simp] theorem closeEvent_pending (s : State) (b : State) : (s.closeEvent b).pending = s.pending := by
  show ((s.reckonMode b).sweep).pending = s.pending
  rw [sweep_pending, reckonMode_pending]
@[simp] theorem closeEvent_rides (s : State) (b : State) : (s.closeEvent b).rides = s.rides := by
  show ((s.reckonMode b).sweep).rides = s.rides
  rw [sweep_rides, reckonMode_rides]
@[simp] theorem closeEvent_fares (s : State) (b : State) : (s.closeEvent b).fares = s.fares := by
  show ((s.reckonMode b).sweep).fares = s.fares
  rw [sweep_fares, reckonMode_fares]
@[simp] theorem closeEvent_cards (s : State) (b : State) : (s.closeEvent b).cards = s.cards := by
  show ((s.reckonMode b).sweep).cards = s.cards
  rw [sweep_cards, reckonMode_cards]
@[simp] theorem closeEvent_faults (s : State) (b : State) : (s.closeEvent b).faults = s.faults := by
  show ((s.reckonMode b).sweep).faults = s.faults
  rw [sweep_faults, reckonMode_faults]
@[simp] theorem closeEvent_vans (s : State) (b : State) : (s.closeEvent b).vans = s.vans := by
  show ((s.reckonMode b).sweep).vans = s.vans
  rw [sweep_vans, reckonMode_vans]
@[simp] theorem closeEvent_time (s : State) (b : State) : (s.closeEvent b).time = s.time := by
  show ((s.reckonMode b).sweep).time = s.time
  rw [sweep_time, reckonMode_time]

@[simp] theorem closeEvent_card (s : State) (b : State) (m : Nat) : (s.closeEvent b).card m = s.card m :=
  card_congr (closeEvent_cards ..) m
@[simp] theorem closeEvent_held (s : State) (b : State) : (s.closeEvent b).held = s.held :=
  held_congr (closeEvent_time ..)

/-! ### closeQuiet -/

@[simp] theorem closeQuiet_pending (s : State) (b : State) : (s.closeQuiet b).pending = s.pending := rfl
@[simp] theorem closeQuiet_rail (s : State) (b : State) : (s.closeQuiet b).rail = s.rail := rfl
@[simp] theorem closeQuiet_rides (s : State) (b : State) : (s.closeQuiet b).rides = s.rides := rfl
@[simp] theorem closeQuiet_fares (s : State) (b : State) : (s.closeQuiet b).fares = s.fares := rfl
@[simp] theorem closeQuiet_cards (s : State) (b : State) : (s.closeQuiet b).cards = s.cards := rfl
@[simp] theorem closeQuiet_faults (s : State) (b : State) : (s.closeQuiet b).faults = s.faults := rfl
@[simp] theorem closeQuiet_vans (s : State) (b : State) : (s.closeQuiet b).vans = s.vans := rfl
@[simp] theorem closeQuiet_journal (s : State) (b : State) : (s.closeQuiet b).journal = s.journal := rfl
@[simp] theorem closeQuiet_time (s : State) (b : State) : (s.closeQuiet b).time = s.time := rfl

@[simp] theorem closeQuiet_dock (s : State) (b : State) (e : DockNo) : (s.closeQuiet b).dock e = s.dock e :=
  dock_congr (closeQuiet_rail ..) e
@[simp] theorem closeQuiet_card (s : State) (b : State) (m : Nat) : (s.closeQuiet b).card m = s.card m :=
  card_congr (closeQuiet_cards ..) m
@[simp] theorem closeQuiet_held (s : State) (b : State) : (s.closeQuiet b).held = s.held :=
  held_congr (closeQuiet_time ..)

/-! ### endTransfer -/

@[simp] theorem endTransfer_pending (s : State) (p : Port) : (s.endTransfer p).pending = s.pending := rfl
@[simp] theorem endTransfer_rail (s : State) (p : Port) : (s.endTransfer p).rail = s.rail := rfl
@[simp] theorem endTransfer_rides (s : State) (p : Port) : (s.endTransfer p).rides = s.rides := rfl
@[simp] theorem endTransfer_fares (s : State) (p : Port) : (s.endTransfer p).fares = s.fares := rfl
@[simp] theorem endTransfer_cards (s : State) (p : Port) : (s.endTransfer p).cards = s.cards := rfl
@[simp] theorem endTransfer_faults (s : State) (p : Port) : (s.endTransfer p).faults = s.faults := rfl
@[simp] theorem endTransfer_vans (s : State) (p : Port) : (s.endTransfer p).vans = s.vans := rfl
@[simp] theorem endTransfer_journal (s : State) (p : Port) : (s.endTransfer p).journal = s.journal := rfl
@[simp] theorem endTransfer_time (s : State) (p : Port) : (s.endTransfer p).time = s.time := rfl

@[simp] theorem endTransfer_dock (s : State) (p : Port) (e : DockNo) : (s.endTransfer p).dock e = s.dock e :=
  dock_congr (endTransfer_rail ..) e
@[simp] theorem endTransfer_card (s : State) (p : Port) (m : Nat) : (s.endTransfer p).card m = s.card m :=
  card_congr (endTransfer_cards ..) m
@[simp] theorem endTransfer_held (s : State) (p : Port) : (s.endTransfer p).held = s.held :=
  held_congr (endTransfer_time ..)

/-! ### endRequest -/

@[simp] theorem endRequest_pending (s : State) (p : Port) (n : Nat) : (s.endRequest p n).pending = s.pending :=
  rfl
@[simp] theorem endRequest_rail (s : State) (p : Port) (n : Nat) : (s.endRequest p n).rail = s.rail := rfl
@[simp] theorem endRequest_rides (s : State) (p : Port) (n : Nat) : (s.endRequest p n).rides = s.rides := rfl
@[simp] theorem endRequest_fares (s : State) (p : Port) (n : Nat) : (s.endRequest p n).fares = s.fares := rfl
@[simp] theorem endRequest_cards (s : State) (p : Port) (n : Nat) : (s.endRequest p n).cards = s.cards := rfl
@[simp] theorem endRequest_faults (s : State) (p : Port) (n : Nat) : (s.endRequest p n).faults = s.faults :=
  rfl
@[simp] theorem endRequest_vans (s : State) (p : Port) (n : Nat) : (s.endRequest p n).vans = s.vans := rfl
@[simp] theorem endRequest_journal (s : State) (p : Port) (n : Nat) : (s.endRequest p n).journal = s.journal :=
  rfl
@[simp] theorem endRequest_time (s : State) (p : Port) (n : Nat) : (s.endRequest p n).time = s.time := rfl

@[simp] theorem endRequest_dock (s : State) (p : Port) (n : Nat) (e : DockNo) :
    (s.endRequest p n).dock e = s.dock e :=
  dock_congr (endRequest_rail ..) e
@[simp] theorem endRequest_card (s : State) (p : Port) (n : Nat) (m : Nat) : (s.endRequest p n).card m = s.card m :=
  card_congr (endRequest_cards ..) m
@[simp] theorem endRequest_held (s : State) (p : Port) (n : Nat) : (s.endRequest p n).held = s.held :=
  held_congr (endRequest_time ..)

/-! ### placeAnswer -/

@[simp] theorem placeAnswer_pending (s : State) (p : Port) (f : AnswerFrame) :
    (s.placeAnswer p f).pending = s.pending :=
  rfl
@[simp] theorem placeAnswer_rail (s : State) (p : Port) (f : AnswerFrame) : (s.placeAnswer p f).rail = s.rail :=
  rfl
@[simp] theorem placeAnswer_rides (s : State) (p : Port) (f : AnswerFrame) : (s.placeAnswer p f).rides = s.rides :=
  rfl
@[simp] theorem placeAnswer_fares (s : State) (p : Port) (f : AnswerFrame) : (s.placeAnswer p f).fares = s.fares :=
  rfl
@[simp] theorem placeAnswer_cards (s : State) (p : Port) (f : AnswerFrame) : (s.placeAnswer p f).cards = s.cards :=
  rfl
@[simp] theorem placeAnswer_faults (s : State) (p : Port) (f : AnswerFrame) : (s.placeAnswer p f).faults = s.faults :=
  rfl
@[simp] theorem placeAnswer_vans (s : State) (p : Port) (f : AnswerFrame) : (s.placeAnswer p f).vans = s.vans :=
  rfl
@[simp] theorem placeAnswer_journal (s : State) (p : Port) (f : AnswerFrame) :
    (s.placeAnswer p f).journal = s.journal :=
  rfl
@[simp] theorem placeAnswer_time (s : State) (p : Port) (f : AnswerFrame) : (s.placeAnswer p f).time = s.time :=
  rfl

@[simp] theorem placeAnswer_dock (s : State) (p : Port) (f : AnswerFrame) (e : DockNo) :
    (s.placeAnswer p f).dock e = s.dock e :=
  dock_congr (placeAnswer_rail ..) e
@[simp] theorem placeAnswer_card (s : State) (p : Port) (f : AnswerFrame) (m : Nat) :
    (s.placeAnswer p f).card m = s.card m :=
  card_congr (placeAnswer_cards ..) m
@[simp] theorem placeAnswer_held (s : State) (p : Port) (f : AnswerFrame) : (s.placeAnswer p f).held = s.held :=
  held_congr (placeAnswer_time ..)

/-! ### restartStale -/

@[simp] theorem restartStale_pending (s : State) : (s.restartStale).pending = s.pending :=
  by unfold State.restartStale; split <;> rfl
@[simp] theorem restartStale_rail (s : State) : (s.restartStale).rail = s.rail :=
  by unfold State.restartStale; split <;> rfl
@[simp] theorem restartStale_rides (s : State) : (s.restartStale).rides = s.rides :=
  by unfold State.restartStale; split <;> rfl
@[simp] theorem restartStale_fares (s : State) : (s.restartStale).fares = s.fares :=
  by unfold State.restartStale; split <;> rfl
@[simp] theorem restartStale_cards (s : State) : (s.restartStale).cards = s.cards :=
  by unfold State.restartStale; split <;> rfl
@[simp] theorem restartStale_faults (s : State) : (s.restartStale).faults = s.faults :=
  by unfold State.restartStale; split <;> rfl
@[simp] theorem restartStale_vans (s : State) : (s.restartStale).vans = s.vans :=
  by unfold State.restartStale; split <;> rfl
@[simp] theorem restartStale_journal (s : State) : (s.restartStale).journal = s.journal :=
  by unfold State.restartStale; split <;> rfl

@[simp] theorem restartStale_dock (s : State) (e : DockNo) : (s.restartStale).dock e = s.dock e :=
  dock_congr (restartStale_rail ..) e
@[simp] theorem restartStale_card (s : State) (m : Nat) : (s.restartStale).card m = s.card m :=
  card_congr (restartStale_cards ..) m

/-! ### afterAnswer -/

@[simp] theorem afterAnswer_pending (s : State) (p : Port) (r : Bool) (a : Reply) :
    (s.afterAnswer p r a).pending = s.pending :=
  by unfold State.afterAnswer; split <;> [(split <;> [exact restartStale_pending s; rfl]); rfl]
@[simp] theorem afterAnswer_rail (s : State) (p : Port) (r : Bool) (a : Reply) :
    (s.afterAnswer p r a).rail = s.rail :=
  by unfold State.afterAnswer; split <;> [(split <;> [exact restartStale_rail s; rfl]); rfl]
@[simp] theorem afterAnswer_rides (s : State) (p : Port) (r : Bool) (a : Reply) :
    (s.afterAnswer p r a).rides = s.rides :=
  by unfold State.afterAnswer; split <;> [(split <;> [exact restartStale_rides s; rfl]); rfl]
@[simp] theorem afterAnswer_fares (s : State) (p : Port) (r : Bool) (a : Reply) :
    (s.afterAnswer p r a).fares = s.fares :=
  by unfold State.afterAnswer; split <;> [(split <;> [exact restartStale_fares s; rfl]); rfl]
@[simp] theorem afterAnswer_cards (s : State) (p : Port) (r : Bool) (a : Reply) :
    (s.afterAnswer p r a).cards = s.cards :=
  by unfold State.afterAnswer; split <;> [(split <;> [exact restartStale_cards s; rfl]); rfl]
@[simp] theorem afterAnswer_faults (s : State) (p : Port) (r : Bool) (a : Reply) :
    (s.afterAnswer p r a).faults = s.faults :=
  by unfold State.afterAnswer; split <;> [(split <;> [exact restartStale_faults s; rfl]); rfl]
@[simp] theorem afterAnswer_vans (s : State) (p : Port) (r : Bool) (a : Reply) :
    (s.afterAnswer p r a).vans = s.vans :=
  by unfold State.afterAnswer; split <;> [(split <;> [exact restartStale_vans s; rfl]); rfl]
@[simp] theorem afterAnswer_journal (s : State) (p : Port) (r : Bool) (a : Reply) :
    (s.afterAnswer p r a).journal = s.journal :=
  by unfold State.afterAnswer; split <;> [(split <;> [exact restartStale_journal s; rfl]); rfl]

@[simp] theorem afterAnswer_dock (s : State) (p : Port) (r : Bool) (a : Reply) (e : DockNo) :
    (s.afterAnswer p r a).dock e = s.dock e :=
  dock_congr (afterAnswer_rail ..) e
@[simp] theorem afterAnswer_card (s : State) (p : Port) (r : Bool) (a : Reply) (m : Nat) :
    (s.afterAnswer p r a).card m = s.card m :=
  card_congr (afterAnswer_cards ..) m

/-! ### clearInFlight -/

@[simp] theorem clearInFlight_pending (s : State) (n : Nat) : (s.clearInFlight n).pending = s.pending := rfl
@[simp] theorem clearInFlight_rail (s : State) (n : Nat) : (s.clearInFlight n).rail = s.rail := rfl
@[simp] theorem clearInFlight_rides (s : State) (n : Nat) : (s.clearInFlight n).rides = s.rides := rfl
@[simp] theorem clearInFlight_fares (s : State) (n : Nat) : (s.clearInFlight n).fares = s.fares := rfl
@[simp] theorem clearInFlight_faults (s : State) (n : Nat) : (s.clearInFlight n).faults = s.faults := rfl
@[simp] theorem clearInFlight_vans (s : State) (n : Nat) : (s.clearInFlight n).vans = s.vans := rfl
@[simp] theorem clearInFlight_journal (s : State) (n : Nat) : (s.clearInFlight n).journal = s.journal := rfl
@[simp] theorem clearInFlight_time (s : State) (n : Nat) : (s.clearInFlight n).time = s.time := rfl
@[simp] theorem clearInFlight_ports (s : State) (n : Nat) : (s.clearInFlight n).ports = s.ports := rfl

@[simp] theorem clearInFlight_dock (s : State) (n : Nat) (e : DockNo) : (s.clearInFlight n).dock e = s.dock e :=
  dock_congr (clearInFlight_rail ..) e
@[simp] theorem clearInFlight_held (s : State) (n : Nat) : (s.clearInFlight n).held = s.held :=
  held_congr (clearInFlight_time ..)

/-! ### clearHoldDock -/

@[simp] theorem clearHoldDock_pending (s : State) (n : Nat) : (s.clearHoldDock n).pending = s.pending := rfl
@[simp] theorem clearHoldDock_rail (s : State) (n : Nat) : (s.clearHoldDock n).rail = s.rail := rfl
@[simp] theorem clearHoldDock_rides (s : State) (n : Nat) : (s.clearHoldDock n).rides = s.rides := rfl
@[simp] theorem clearHoldDock_fares (s : State) (n : Nat) : (s.clearHoldDock n).fares = s.fares := rfl
@[simp] theorem clearHoldDock_faults (s : State) (n : Nat) : (s.clearHoldDock n).faults = s.faults := rfl
@[simp] theorem clearHoldDock_vans (s : State) (n : Nat) : (s.clearHoldDock n).vans = s.vans := rfl
@[simp] theorem clearHoldDock_journal (s : State) (n : Nat) : (s.clearHoldDock n).journal = s.journal := rfl
@[simp] theorem clearHoldDock_time (s : State) (n : Nat) : (s.clearHoldDock n).time = s.time := rfl
@[simp] theorem clearHoldDock_ports (s : State) (n : Nat) : (s.clearHoldDock n).ports = s.ports := rfl

@[simp] theorem clearHoldDock_dock (s : State) (n : Nat) (e : DockNo) : (s.clearHoldDock n).dock e = s.dock e :=
  dock_congr (clearHoldDock_rail ..) e
@[simp] theorem clearHoldDock_held (s : State) (n : Nat) : (s.clearHoldDock n).held = s.held :=
  held_congr (clearHoldDock_time ..)

/-! ### enterClaim -/

@[simp] theorem enterClaim_pending (s : State) (n : Nat) (c : SegmentSet) : (s.enterClaim n c).pending = s.pending :=
  rfl
@[simp] theorem enterClaim_rail (s : State) (n : Nat) (c : SegmentSet) : (s.enterClaim n c).rail = s.rail :=
  rfl
@[simp] theorem enterClaim_rides (s : State) (n : Nat) (c : SegmentSet) : (s.enterClaim n c).rides = s.rides :=
  rfl
@[simp] theorem enterClaim_fares (s : State) (n : Nat) (c : SegmentSet) : (s.enterClaim n c).fares = s.fares :=
  rfl
@[simp] theorem enterClaim_cards (s : State) (n : Nat) (c : SegmentSet) : (s.enterClaim n c).cards = s.cards :=
  rfl
@[simp] theorem enterClaim_faults (s : State) (n : Nat) (c : SegmentSet) : (s.enterClaim n c).faults = s.faults :=
  rfl
@[simp] theorem enterClaim_journal (s : State) (n : Nat) (c : SegmentSet) : (s.enterClaim n c).journal = s.journal :=
  rfl
@[simp] theorem enterClaim_time (s : State) (n : Nat) (c : SegmentSet) : (s.enterClaim n c).time = s.time :=
  rfl
@[simp] theorem enterClaim_ports (s : State) (n : Nat) (c : SegmentSet) : (s.enterClaim n c).ports = s.ports :=
  rfl

@[simp] theorem enterClaim_dock (s : State) (n : Nat) (c : SegmentSet) (e : DockNo) :
    (s.enterClaim n c).dock e = s.dock e :=
  dock_congr (enterClaim_rail ..) e
@[simp] theorem enterClaim_card (s : State) (n : Nat) (c : SegmentSet) (m : Nat) :
    (s.enterClaim n c).card m = s.card m :=
  card_congr (enterClaim_cards ..) m
@[simp] theorem enterClaim_held (s : State) (n : Nat) (c : SegmentSet) : (s.enterClaim n c).held = s.held :=
  held_congr (enterClaim_time ..)

/-! ### leaveClaim -/

@[simp] theorem leaveClaim_pending (s : State) (n : Nat) : (s.leaveClaim n).pending = s.pending := rfl
@[simp] theorem leaveClaim_rail (s : State) (n : Nat) : (s.leaveClaim n).rail = s.rail := rfl
@[simp] theorem leaveClaim_rides (s : State) (n : Nat) : (s.leaveClaim n).rides = s.rides := rfl
@[simp] theorem leaveClaim_fares (s : State) (n : Nat) : (s.leaveClaim n).fares = s.fares := rfl
@[simp] theorem leaveClaim_cards (s : State) (n : Nat) : (s.leaveClaim n).cards = s.cards := rfl
@[simp] theorem leaveClaim_faults (s : State) (n : Nat) : (s.leaveClaim n).faults = s.faults := rfl
@[simp] theorem leaveClaim_journal (s : State) (n : Nat) : (s.leaveClaim n).journal = s.journal := rfl
@[simp] theorem leaveClaim_time (s : State) (n : Nat) : (s.leaveClaim n).time = s.time := rfl
@[simp] theorem leaveClaim_ports (s : State) (n : Nat) : (s.leaveClaim n).ports = s.ports := rfl

@[simp] theorem leaveClaim_dock (s : State) (n : Nat) (e : DockNo) : (s.leaveClaim n).dock e = s.dock e :=
  dock_congr (leaveClaim_rail ..) e
@[simp] theorem leaveClaim_card (s : State) (n : Nat) (m : Nat) : (s.leaveClaim n).card m = s.card m :=
  card_congr (leaveClaim_cards ..) m
@[simp] theorem leaveClaim_held (s : State) (n : Nat) : (s.leaveClaim n).held = s.held :=
  held_congr (leaveClaim_time ..)

/-! ## Reading back a port -/

@[simp] theorem get_set_self (u : PortUnits) (p : Port) (x : PortUnit) : (u.set p x).get p = x := by
  cases p <;> rfl

theorem get_set_ne (u : PortUnits) {p q : Port} (x : PortUnit) (h : q ≠ p) : (u.set p x).get q = u.get q := by
  cases p <;> cases q <;> first | rfl | exact absurd rfl h

@[simp] theorem setPort_port_self (s : State) (p : Port) (x : PortUnit) : (s.setPort p x).port p = x :=
  get_set_self ..

theorem setPort_port_ne (s : State) {p q : Port} (x : PortUnit) (h : q ≠ p) : (s.setPort p x).port q = s.port q :=
  get_set_ne _ _ h

theorem notify_port_self (s : State) (p : Port) (k : Notice) :
    (s.notify p k).port p = { s.port p with pendingSet := (s.port p).pendingSet ||| k.single } :=
  setPort_port_self ..

theorem notify_port_ne (s : State) {p q : Port} (k : Notice) (h : q ≠ p) : (s.notify p k).port q = s.port q :=
  setPort_port_ne _ _ h

/-- A notice never touches a slot. -/
@[simp] theorem notify_slot (s : State) (p q : Port) (k : Notice) :
    ((s.notify p k).port q).slot = (s.port q).slot := by
  by_cases h : q = p
  · subst h; rw [notify_port_self]
  · rw [notify_port_ne _ _ h]

@[simp] theorem notify_transfer (s : State) (p q : Port) (k : Notice) :
    ((s.notify p k).port q).transfer = (s.port q).transfer := by
  by_cases h : q = p
  · subst h; rw [notify_port_self]
  · rw [notify_port_ne _ _ h]

@[simp] theorem notify_enableSet (s : State) (p q : Port) (k : Notice) :
    ((s.notify p k).port q).enableSet = (s.port q).enableSet := by
  by_cases h : q = p
  · subst h; rw [notify_port_self]
  · rw [notify_port_ne _ _ h]

/-- The line is written at the end of an event, and by nothing else. -/
@[simp] theorem notify_attention (s : State) (p q : Port) (k : Notice) :
    ((s.notify p k).port q).attention = (s.port q).attention := by
  by_cases h : q = p
  · subst h; rw [notify_port_self]
  · rw [notify_port_ne _ _ h]

/-! ## Reading back a dock -/

theorem putDock_docks (r : Rail) (d : DockNo) (x : Dock) : (r.putDock d x).docks = r.docks.set d x := by
  unfold Rail.putDock
  dsimp only
  split <;> rfl

@[simp] theorem putDock_opens (r : Rail) (d : DockNo) (x : Dock) : (r.putDock d x).opens = r.opens := by
  unfold Rail.putDock
  dsimp only
  split <;> rfl

@[simp] theorem putDock_cursor (r : Rail) (d : DockNo) (x : Dock) : (r.putDock d x).cursor = r.cursor := by
  unfold Rail.putDock
  dsimp only
  split <;> rfl

@[simp] theorem putDock_dock_self (s : State) (d : DockNo) (x : Dock) : (s.putDock d x).dock d = x := by
  simp only [State.dock, State.putDock, putDock_docks, Fin.getElem_fin, Vector.getElem_set_self]

theorem putDock_dock_ne (s : State) {d e : DockNo} (x : Dock) (h : e ≠ d) : (s.putDock d x).dock e = s.dock e := by
  have h' : d.val ≠ e.val := fun q => h (Fin.ext q.symm)
  simp only [State.dock, State.putDock, putDock_docks, Fin.getElem_fin, Vector.getElem_set_ne _ _ h']

@[simp] theorem putDockState_dock_self (s : State) (d : DockNo) (st : DockState) :
    (s.putDockState d st).dock d = { s.dock d with state := st } :=
  putDock_dock_self ..

theorem putDockState_dock_ne (s : State) {d e : DockNo} (st : DockState) (h : e ≠ d) :
    (s.putDockState d st).dock e = s.dock e :=
  putDock_dock_ne _ _ h

/-- A dock write under which no token-held flag clears writes the dock table alone (R5). -/
theorem putDock_rail_of_token (s : State) (d : DockNo) (x : Dock)
    (h : (s.dock d).state.heldToken? = none ∨ x.state.heldToken? = (s.dock d).state.heldToken?) :
    (s.putDock d x).rail = { s.rail with docks := s.rail.docks.set d x } := by
  show s.rail.putDock d x = _
  unfold Rail.putDock
  dsimp only
  rw [if_neg]
  rintro ⟨h1, h2⟩
  rcases h with h | h
  · rw [State.dock] at h; rw [h] at h1; cases h1
  · exact h2 h

/-! ## Reading back a card -/

theorem findCard_cons (n : Nat) (c : CardEntry) (cs : List CardEntry) :
    findCard n (c :: cs) = if c.number = n then some c else findCard n cs := by
  by_cases h : c.number = n <;> simp [findCard, h]

theorem updateCard_cons (n : Nat) (f : CardEntry → CardEntry) (c : CardEntry) (cs : List CardEntry) :
    updateCard n f (c :: cs) = (if c.number = n then f c else c) :: updateCard n f cs := rfl

theorem updateCard_find_self (n : Nat) (f : CardEntry → CardEntry) (cards : List CardEntry)
    (hf : ∀ c, (f c).number = c.number) : findCard n (updateCard n f cards) = (findCard n cards).map f := by
  induction cards with
  | nil => rfl
  | cons c cs ih =>
    rw [updateCard_cons, findCard_cons, findCard_cons, ih]
    by_cases h : c.number = n <;> simp [h, hf]

theorem updateCard_find_ne {n m : Nat} (f : CardEntry → CardEntry) (cards : List CardEntry)
    (hf : ∀ c, (f c).number = c.number) (h : m ≠ n) : findCard m (updateCard n f cards) = findCard m cards := by
  induction cards with
  | nil => rfl
  | cons c cs ih =>
    rw [updateCard_cons, findCard_cons, findCard_cons, ih]
    by_cases hc : c.number = n
    · have : c.number ≠ m := fun q => h (q.symm.trans hc)
      simp [hc, hf, Ne.symm h]
    · simp [hc]
theorem modifyCard_card_self (s : State) (n : Nat) (f : CardEntry → CardEntry) (hf : ∀ c, (f c).number = c.number) :
    (s.modifyCard n f).card n = (s.card n).map f :=
  updateCard_find_self n f _ hf

theorem modifyCard_card_ne (s : State) {n m : Nat} (f : CardEntry → CardEntry) (hf : ∀ c, (f c).number = c.number)
    (h : m ≠ n) : (s.modifyCard n f).card m = s.card m :=
  updateCard_find_ne f _ hf h

theorem findCard_number {n : Nat} {cards : List CardEntry} {c : CardEntry} (h : findCard n cards = some c) :
    c.number = n := by
  have := List.find?_some h
  simpa using this

/-! ## Reading back a job -/

@[simp] theorem setJob_job_self (s : State) (i : SlotNo) (j : Option JobRecord) : (s.setJob i j).job i = j := by
  simp only [State.job, State.setJob, Fin.getElem_fin, Vector.getElem_set_self]

theorem setJob_job_ne (s : State) {i k : SlotNo} (j : Option JobRecord) (h : k ≠ i) :
    (s.setJob i j).job k = s.job k := by
  have h' : i.val ≠ k.val := fun q => h (Fin.ext q.symm)
  simp only [State.job, State.setJob, Fin.getElem_fin, Vector.getElem_set_ne _ _ h']

end Sys2Proof.Machine.Laws
end

