-- ==== Sys2Proof/Laws/Event.lean ====
section
/-! SUPPORT. What setting a notice, the end of an event and the end of a request's event can do, said once for every
proof about a command. -/

namespace Sys2Proof.Machine.Laws

/-! ## Notice sets -/

theorem code_bounds (k : Notice) : 1 ≤ k.code ∧ k.code ≤ 16 := by cases k <;> decide

theorem code_inj {j k : Notice} (h : j.code = k.code) : j = k := by
  cases j <;> cases k <;> first | rfl | exact absurd h (by decide)

theorem single_has (j k : Notice) : NoticeSet.has k.single j = decide (j = k) := by
  cases j <;> cases k <;> decide

@[simp] theorem has_or (a b : NoticeSet) (k : Notice) : NoticeSet.has (a ||| b) k = (a.has k || b.has k) :=
  BitVec.getLsbD_or

@[simp] theorem has_and (a b : NoticeSet) (k : Notice) : NoticeSet.has (a &&& b) k = (a.has k && b.has k) :=
  BitVec.getLsbD_and

theorem has_not (a : NoticeSet) (k : Notice) : NoticeSet.has (~~~a) k = !a.has k := by
  have h := code_bounds k
  simp only [NoticeSet.has, BitVec.getLsbD_not]
  rw [decide_eq_true (by omega), Bool.true_and]

theorem has_noticeSetOf (l : List Notice) (k : Notice) : NoticeSet.has (noticeSetOf l) k = decide (k ∈ l) := by
  induction l with
  | nil => simp [noticeSetOf, NoticeSet.has]
  | cons j js ih => rw [noticeSetOf, has_or, ih, single_has]; simp [List.mem_cons]

/-- Two notice sets with the same kinds are the same set. -/
theorem noticeSet_ext {a b : NoticeSet} (h : ∀ k, a.has k = b.has k) : a = b := by
  apply BitVec.eq_of_getLsbD_eq
  intro i hi
  have key : ∃ k : Notice, k.code = i + 1 := by
    have : i < 16 := hi
    interval_cases i
    exacts [⟨.rideStarted, rfl⟩, ⟨.releaseLapsed, rfl⟩, ⟨.holdExpired, rfl⟩, ⟨.holdLost, rfl⟩, ⟨.tariffSwitched, rfl⟩,
      ⟨.linkChanged, rfl⟩, ⟨.journalMode, rfl⟩, ⟨.journalWaiting, rfl⟩, ⟨.commandWaiting, rfl⟩, ⟨.censusWanted, rfl⟩,
      ⟨.jobEnded, rfl⟩, ⟨.quarantine, rfl⟩, ⟨.dockFault, rfl⟩, ⟨.tokenHeld, rfl⟩, ⟨.overrun, rfl⟩, ⟨.resetSeen, rfl⟩]
  obtain ⟨k, hk⟩ := key
  have := h k
  simpa only [NoticeSet.has, hk, Nat.add_sub_cancel] using this

/-! ## Growing port units -/

/-- The port units of `t` are those of `s` with notices set: slots, transfer states, enable sets, lines and data out
stand. -/
structure PortsGrow (t s : State) : Prop where
  slot : ∀ q, (t.port q).slot = (s.port q).slot
  transfer : ∀ q, (t.port q).transfer = (s.port q).transfer
  enableSet : ∀ q, (t.port q).enableSet = (s.port q).enableSet
  dataOut : ∀ q, (t.port q).dataOut = (s.port q).dataOut
  attention : ∀ q, (t.port q).attention = (s.port q).attention
  notified : ∀ {q k}, s.notified q k → t.notified q k

theorem PortsGrow.refl (s : State) : PortsGrow s s :=
  ⟨fun _ => rfl, fun _ => rfl, fun _ => rfl, fun _ => rfl, fun _ => rfl, fun h => h⟩

theorem PortsGrow.trans {t u s : State} (h1 : PortsGrow t u) (h2 : PortsGrow u s) : PortsGrow t s :=
  ⟨fun q => (h1.slot q).trans (h2.slot q), fun q => (h1.transfer q).trans (h2.transfer q),
    fun q => (h1.enableSet q).trans (h2.enableSet q), fun q => (h1.dataOut q).trans (h2.dataOut q),
    fun q => (h1.attention q).trans (h2.attention q), fun h => h1.notified (h2.notified h)⟩

theorem PortsGrow.of_ports {t s : State} (h : t.ports = s.ports) : PortsGrow t s := by
  have e := port_congr h
  constructor <;> intros <;> simp_all [State.notified]

theorem notified_congr {t s : State} (h : t.ports = s.ports) (q : Port) (k : Notice) :
    t.notified q k ↔ s.notified q k := by
  simp only [State.notified, port_congr h q]

/-- Setting a kind at a port: the kinds pending there afterwards (R179). -/
theorem notified_notify (s : State) (p q : Port) (j k : Notice) :
    (s.notify p j).notified q k ↔ s.notified q k ∨ (q = p ∧ k = j) := by
  by_cases h : q = p
  · subst h
    simp [State.notified, notify_port_self, single_has]
  · simp [State.notified, notify_port_ne _ _ h, h]

theorem notify_grows (s : State) (p : Port) (k : Notice) : PortsGrow (s.notify p k) s :=
  ⟨fun _ => notify_slot .., fun _ => notify_transfer .., fun _ => notify_enableSet .., fun q => by
    by_cases h : q = p
    · subst h; rw [notify_port_self]
    · rw [notify_port_ne _ _ h], fun _ => notify_attention .., fun h => (notified_notify ..).2 (Or.inl h)⟩

theorem notify_notified (s : State) (p : Port) (k : Notice) : (s.notify p k).notified p k :=
  (notified_notify ..).2 (Or.inr ⟨rfl, rfl⟩)

theorem outcome_grows (s : State) (p : RiderPort) (kind : OutcomeKind) (card : Nat) (d : DockNo) :
    PortsGrow (s.outcome p kind card d) s := by
  unfold State.outcome
  exact (notify_grows ..).trans (PortsGrow.of_ports rfl)

theorem outcome_notified (s : State) (p : RiderPort) (kind : OutcomeKind) (card : Nat) (d : DockNo) :
    (s.outcome p kind card d).notified p.port kind.notice := notify_notified ..

theorem append_grows (s : State) (body : RecordBody) : PortsGrow (s.append body) s :=
  (notify_grows ..).trans (PortsGrow.of_ports rfl)

theorem append_notified (s : State) (body : RecordBody) : (s.append body).notified .uplink .journalWaiting :=
  notify_notified ..

theorem appendIfRoom_grows (s : State) (body : RecordBody) : PortsGrow (s.appendIfRoom body) s := by
  unfold State.appendIfRoom
  split
  · exact append_grows ..
  · exact PortsGrow.refl _

theorem appendReserved_grows (s : State) (size : Nat) (body : RecordBody) :
    PortsGrow (s.appendReserved size body) s :=
  (append_grows ..).trans (PortsGrow.of_ports rfl)

theorem pushCommand_grows (s : State) (c : Command) : PortsGrow (s.pushCommand c) s :=
  (notify_grows ..).trans (PortsGrow.of_ports rfl)

theorem pushCommand_notified (s : State) (c : Command) : (s.pushCommand c).notified .rail .commandWaiting :=
  notify_notified ..

theorem giveUp_grows (s : State) (o : OpenOwner) (fetched : Bool) : PortsGrow (s.giveUp o fetched) s := by
  unfold State.giveUp
  split
  · split
    · exact (pushCommand_grows ..).trans (PortsGrow.of_ports rfl)
    · exact PortsGrow.refl _
  · exact PortsGrow.of_ports rfl

/-! ## The end of an event -/

theorem reckonMode_grows (u s : State) : PortsGrow (u.reckonMode s) u := by
  unfold State.reckonMode
  split
  · exact PortsGrow.refl _
  · dsimp only
    split
    · exact PortsGrow.of_ports rfl
    · exact ((notify_grows ..).trans (notify_grows ..)).trans (PortsGrow.of_ports rfl)

/-- The mode is all that reckoning it writes outside the port units. -/
theorem reckonMode_eq (u s : State) :
    u.reckonMode s = { u with journal := { u.journal with mode := (u.reckonMode s).journal.mode },
                              ports := (u.reckonMode s).ports } := by
  unfold State.reckonMode
  split
  · rfl
  · dsimp only
    split <;> rfl

theorem sweep_grows (u : State) : PortsGrow u.sweep u := by
  unfold State.sweep
  split
  · exact (pushCommand_grows ..).trans (PortsGrow.of_ports rfl)
  · exact PortsGrow.refl _

/-- The sweep appends at most one READ_TOKEN and moves the cursor with it (R45). -/
theorem sweep_eq (u : State) :
    (u.sweepChoice = none ∧ u.sweep = u)
      ∨ ∃ d, u.sweepChoice = some d
          ∧ u.sweep = { u with rail := { u.rail with queue := u.rail.queue ++ [.readToken d], cursor := some d },
                               ports := u.sweep.ports }
          ∧ u.sweep.notified .rail .commandWaiting := by
  unfold State.sweep
  cases h : u.sweepChoice with
  | none => exact Or.inl ⟨rfl, rfl⟩
  | some d => exact Or.inr ⟨d, rfl, rfl, pushCommand_notified ..⟩

/-! ## Which dock the sweep chooses (R45) -/

/-- The first hit of a search through a list that rises in a measure has the least measure of all hits. -/
theorem find?_least {α : Type} {p : α → Bool} {f : α → Nat} {l : List α} {d : α} (hl : l.Pairwise (fun x y => f x < f y))
    (h : l.find? p = some d) : ∀ e ∈ l, p e = true → f d ≤ f e := by
  induction l with
  | nil => cases h
  | cons x xs ih =>
    rw [List.pairwise_cons] at hl
    rw [List.find?_cons] at h
    intro e he hp
    split at h
    · cases h
      rcases List.mem_cons.1 he with rfl | he
      · exact Nat.le_refl _
      · exact Nat.le_of_lt (hl.1 e he)
    · next hx =>
      rcases List.mem_cons.1 he with rfl | he
      · rw [hp] at hx; cases hx
      · exact ih hl.2 h e he hp

theorem mem_sweepOrder (c : Option DockNo) (d : DockNo) : d ∈ sweepOrder c := by
  cases c with
  | none => exact List.mem_finRange d
  | some c =>
    simp only [sweepOrder, List.mem_append, List.mem_filter, decide_eq_true_eq]
    rcases Nat.lt_or_ge c.val d.val with h | h
    · exact Or.inl ⟨List.mem_finRange d, h⟩
    · exact Or.inr ⟨List.mem_finRange d, h⟩

/-- The sweep considers the docks in the order in which they stand after the cursor. -/
theorem sweepOrder_rises (s : State) : (sweepOrder s.rail.cursor).Pairwise (fun x y => s.afterCursor x < s.afterCursor y) := by
  have base : allDocks.Pairwise (fun x y : DockNo => x.val < y.val) := List.pairwise_lt_finRange 64
  unfold State.afterCursor
  cases s.rail.cursor with
  | none => exact base
  | some c =>
    have hc := c.isLt
    simp only [sweepOrder, List.pairwise_append, List.pairwise_filter, List.mem_filter, decide_eq_true_eq, Fin.lt_def,
      Fin.le_def]
    refine ⟨base.imp ?_, base.imp ?_, ?_⟩
    · intro a b h ha hb; have := a.isLt; have := b.isLt; omega
    · intro a b h ha hb; have := a.isLt; have := b.isLt; omega
    · rintro a ⟨_, ha⟩ b ⟨_, hb⟩; have := a.isLt; have := b.isLt; omega

theorem sweepable_iff (s : State) (d : DockNo) : s.sweepable d = true ↔ s.tokenAt d := by
  unfold State.sweepable State.tokenAt
  cases (s.dock d).state <;> simp

theorem readQueued_iff (r : Rail) : r.readQueued = true ↔ ∃ d, .readToken d ∈ r.queue := by
  unfold Rail.readQueued
  rw [List.any_eq_true]
  constructor
  · rintro ⟨c, hc, h⟩
    cases c with
    | readToken d => exact ⟨d, hc⟩
    | unlock => cases h
    | batchUnlock => cases h
    | relock => cases h
  · rintro ⟨d, hd⟩
    exact ⟨_, hd, rfl⟩

/-- The sweep chooses a dock exactly where R45 gives one. -/
theorem sweepChoice_iff (s : State) (d : DockNo) : s.sweepChoice = some d ↔ s.sweepsTo d := by
  have hq : (!s.rail.readQueued) = true ↔ ∀ e, .readToken e ∉ s.rail.queue := by
    rw [Bool.not_eq_true', ← Bool.not_eq_true, readQueued_iff, not_exists]
  have hr : s.rail.hasRoom = true ↔ s.rail.queue.length + s.rail.opens.length < 24 := decide_eq_true_iff
  constructor
  · intro h
    unfold State.sweepChoice at h
    split at h
    · next q =>
      obtain ⟨q1, q2, q3, q4, q5, q6, q7⟩ := q
      refine ⟨q1, q2, q3, q4, hq.1 q5, q6, hr.1 q7, (sweepable_iff s d).1 (List.find?_some h), fun e he => ?_⟩
      exact find?_least (sweepOrder_rises s) h e (mem_sweepOrder ..) ((sweepable_iff s e).2 he)
    · cases h
  · rintro ⟨q1, q2, q3, q4, q5, q6, q7, ht, hmin⟩
    unfold State.sweepChoice
    rw [if_pos ⟨q1, q2, q3, q4, hq.2 q5, q6, hr.2 q7⟩]
    cases h : (sweepOrder s.rail.cursor).find? (fun d => s.sweepable d) with
    | none =>
      have := List.find?_eq_none.1 h d (mem_sweepOrder ..)
      exact absurd ((sweepable_iff s d).2 ht) this
    | some e =>
      have h1 := hmin e ((sweepable_iff s e).1 (List.find?_some h))
      have h2 := find?_least (sweepOrder_rises s) h d (mem_sweepOrder ..) ((sweepable_iff s d).2 ht)
      have : e = d := by
        unfold State.afterCursor at h1 h2
        apply Fin.ext
        have := e.isLt; have := d.isLt
        cases hc : s.rail.cursor with
        | none => rw [hc] at h1 h2; dsimp only at h1 h2; omega
        | some c => rw [hc] at h1 h2; dsimp only at h1 h2; have := c.isLt; omega
      rw [this]

/-- The sweep leaves the rail as R45 gives. -/
theorem sweep_sweptFrom (u : State) : u.sweep.rail.sweptFrom u := by
  rcases sweep_eq u with ⟨hc, h⟩ | ⟨d, hc, h, _⟩
  · refine Or.inl ⟨fun d hd => ?_, by rw [h]⟩
    rw [← sweepChoice_iff, hc] at hd
    cases hd
  · exact Or.inr ⟨d, (sweepChoice_iff u d).1 hc, by rw [h]⟩

/-- Whether and where the sweep acts reads the rail, the configured flag, the clock's valid flag, plan 0 and the journal
mode alone. -/
theorem sweepsTo_congr {u v : State} (hr : v.rail = u.rail) (hc : v.time.config.configured = u.time.config.configured)
    (hv : v.time.clockValid = u.time.clockValid) (hf : v.fares = u.fares) (hm : v.journal.mode = u.journal.mode)
    (d : DockNo) : v.sweepsTo d ↔ u.sweepsTo d := by
  unfold State.sweepsTo State.tokenAt State.afterCursor State.dock
  rw [hr, hc, hv, hf, hm]

theorem sweptFrom_of_parts {u v : State} {r : Rail} (hr : v.rail = u.rail)
    (hc : v.time.config.configured = u.time.config.configured) (hv : v.time.clockValid = u.time.clockValid)
    (hf : v.fares = u.fares) (hm : v.journal.mode = u.journal.mode) (h : r.sweptFrom u) : r.sweptFrom v := by
  have e := sweepsTo_congr hr hc hv hf hm
  rcases h with ⟨h1, h2⟩ | ⟨d, h1, h2⟩
  · exact Or.inl ⟨fun d hd => h1 d ((e d).1 hd), by rw [hr]; exact h2⟩
  · exact Or.inr ⟨d, (e d).2 h1, by rw [hr]; exact h2⟩

theorem sweptFrom_congr {u v : State} {r : Rail} (huv : u = { v with ports := u.ports }) (h : r.sweptFrom u) :
    r.sweptFrom v := by
  rw [huv] at h
  exact sweptFrom_of_parts (u := { v with ports := u.ports }) rfl rfl rfl rfl rfl h

theorem reckonLines_port (u s : State) (q : Port) : (u.reckonLines s).port q = reckonLine (s.port q) (u.port q) := by
  cases q <;> rfl

theorem reckonLine_fields (a b : PortUnit) :
    (reckonLine a b).slot = b.slot ∧ (reckonLine a b).transfer = b.transfer
      ∧ (reckonLine a b).pendingSet = b.pendingSet ∧ (reckonLine a b).enableSet = b.enableSet
      ∧ (reckonLine a b).dataOut = b.dataOut := by
  unfold reckonLine
  split <;> exact ⟨rfl, rfl, rfl, rfl, rfl⟩

/-- The port units of `t` are those of `s` with notices set, their lines aside. -/
structure PortsFollow (t s : State) : Prop where
  slot : ∀ q, (t.port q).slot = (s.port q).slot
  transfer : ∀ q, (t.port q).transfer = (s.port q).transfer
  enableSet : ∀ q, (t.port q).enableSet = (s.port q).enableSet
  dataOut : ∀ q, (t.port q).dataOut = (s.port q).dataOut
  notified : ∀ {q k}, s.notified q k → t.notified q k

theorem PortsGrow.follow {t s : State} (h : PortsGrow t s) : PortsFollow t s :=
  ⟨h.slot, h.transfer, h.enableSet, h.dataOut, h.notified⟩

theorem PortsFollow.refl (s : State) : PortsFollow s s := (PortsGrow.refl s).follow

theorem PortsFollow.trans {t u s : State} (h1 : PortsFollow t u) (h2 : PortsFollow u s) : PortsFollow t s :=
  ⟨fun q => (h1.slot q).trans (h2.slot q), fun q => (h1.transfer q).trans (h2.transfer q),
    fun q => (h1.enableSet q).trans (h2.enableSet q), fun q => (h1.dataOut q).trans (h2.dataOut q),
    fun h => h1.notified (h2.notified h)⟩

theorem PortsFollow.of_ports {t s : State} (h : t.ports = s.ports) : PortsFollow t s := (PortsGrow.of_ports h).follow

theorem reckonLines_follow (u s : State) : PortsFollow (u.reckonLines s) u := by
  have h := fun q => reckonLine_fields (s.port q) (u.port q)
  constructor <;> intros <;> simp_all [State.notified, reckonLines_port]

theorem reckonLines_notified (u s : State) (q : Port) (k : Notice) :
    (u.reckonLines s).notified q k ↔ u.notified q k := by
  simp only [State.notified, reckonLines_port, (reckonLine_fields _ _).2.2.1]

/-- A port none of whose sets an event changed keeps its unit as the event left it. -/
theorem reckonLines_port_same (u s : State) (q : Port) (h1 : (s.port q).pendingSet = (u.port q).pendingSet)
    (h2 : (s.port q).enableSet = (u.port q).enableSet) : (u.reckonLines s).port q = u.port q := by
  rw [reckonLines_port, reckonLine, if_pos ⟨h1, h2⟩]

theorem closeEvent_follow (u s : State) : PortsFollow (u.closeEvent s) u :=
  (reckonLines_follow ..).trans ((sweep_grows ..).trans (reckonMode_grows ..)).follow

theorem closeQuiet_follow (u s : State) : PortsFollow (u.closeQuiet s) u := reckonLines_follow ..

/-- Two stations with the same ten parts are the same. -/
theorem state_eq {t u : State} (pending : t.pending = u.pending) (rail : t.rail = u.rail) (rides : t.rides = u.rides)
    (fares : t.fares = u.fares) (cards : t.cards = u.cards) (faults : t.faults = u.faults) (vans : t.vans = u.vans)
    (journal : t.journal = u.journal) (time : t.time = u.time) (ports : t.ports = u.ports) : t = u := by
  cases t; cases u; subst pending rail rides fares cards faults vans journal time ports; rfl

theorem reckonMode_journal (u s : State) :
    (u.reckonMode s).journal = { u.journal with mode := (u.reckonMode s).journal.mode } := by
  conv_lhs => rw [reckonMode_eq u s]

theorem closeEvent_journal (u s : State) :
    (u.closeEvent s).journal = { u.journal with mode := (u.closeEvent s).journal.mode } := by
  show ((u.reckonMode s).sweep).journal = { u.journal with mode := ((u.reckonMode s).sweep).journal.mode }
  rw [sweep_journal, ← reckonMode_journal]

/-- The rail at the end of an event is the rail before it, or with the sweep's READ_TOKEN and cursor (R45). -/
theorem closeEvent_rail (u s : State) :
    ((u.reckonMode s).sweepChoice = none ∧ (u.closeEvent s).rail = u.rail)
      ∨ ∃ d, (u.reckonMode s).sweepChoice = some d
          ∧ (u.closeEvent s).rail = { u.rail with queue := u.rail.queue ++ [.readToken d], cursor := some d } := by
  show (_ ∧ ((u.reckonMode s).sweep).rail = _) ∨ ∃ d, _ ∧ ((u.reckonMode s).sweep).rail = _
  rcases sweep_eq (u.reckonMode s) with ⟨hc, h⟩ | ⟨d, hc, h, _⟩
  · exact Or.inl ⟨hc, by rw [h, reckonMode_rail]⟩
  · exact Or.inr ⟨d, hc, by rw [h, reckonMode_rail]⟩

/-- What the end of an event writes outside the port units: the mode, and the queue and the cursor for a sweep. -/
theorem closeEvent_settlesAs (u s : State) : (u.closeEvent s).settlesAs u := by
  have hm : (u.closeEvent s).journal.mode = (u.reckonMode s).journal.mode := by
    show ((u.reckonMode s).sweep).journal.mode = _
    rw [sweep_journal]
  constructor
  · exact state_eq (closeEvent_pending ..) rfl (closeEvent_rides ..) (closeEvent_fares ..) (closeEvent_cards ..)
      (closeEvent_faults ..) (closeEvent_vans ..) (closeEvent_journal u s) (closeEvent_time ..) rfl
  · rw [hm]
    refine sweptFrom_congr ?_ (sweep_sweptFrom (u.reckonMode s))
    conv_lhs => rw [reckonMode_eq u s]
    rfl

theorem closeQuiet_eq (u s : State) : u.closeQuiet s = { u with ports := (u.closeQuiet s).ports } := rfl

/-! ## The end of a request's event -/

theorem endRequest_port_self (s : State) (p : Port) (n : Nat) :
    (s.endRequest p n).port p
      = { s.port p with transfer := .quiet, dataOut := List.replicate n fillByte } :=
  setPort_port_self ..

theorem endRequest_port_ne (s : State) {p q : Port} (n : Nat) (h : q ≠ p) : (s.endRequest p n).port q = s.port q :=
  setPort_port_ne _ _ h

theorem endRequest_eq (s : State) (p : Port) (n : Nat) :
    s.endRequest p n = { s with ports := (s.endRequest p n).ports } := rfl

@[simp] theorem endRequest_fault (s : State) (p : Port) (n : Nat) (b : Nat) :
    (s.endRequest p n).fault b = s.fault b := rfl
@[simp] theorem endRequest_job (s : State) (p : Port) (n : Nat) (i : SlotNo) : (s.endRequest p n).job i = s.job i := rfl
@[simp] theorem endRequest_stamp (s : State) (p : Port) (n : Nat) : (s.endRequest p n).stamp = s.stamp := rfl
@[simp] theorem endRequest_freeSlots (s : State) (p : Port) (n : Nat) : (s.endRequest p n).freeSlots = s.freeSlots := rfl

/-- `endsAs` reads nothing of the port units of the station it compares with. -/
theorem endsAs_congr {t u v : State} {p : Port} (h : t.endsAs u p) (hv : v = { u with ports := v.ports }) :
    t.endsAs v p := by
  obtain ⟨h1, h2⟩ := h
  rw [hv]
  exact ⟨h1, sweptFrom_of_parts rfl rfl rfl rfl rfl h2⟩

theorem settlesAs_congr {t u v : State} (h : t.settlesAs u) (hv : v = { u with ports := v.ports }) : t.settlesAs v := by
  obtain ⟨h1, h2⟩ := h
  rw [hv]
  exact ⟨h1, sweptFrom_of_parts rfl rfl rfl rfl rfl h2⟩

@[simp] theorem clocked_config (u : State) (p : Port) : (u.clocked p).config = u.time.config := by
  unfold State.clocked
  split <;> rfl

@[simp] theorem clocked_clockValid (u : State) (p : Port) : (u.clocked p).clockValid = u.time.clockValid := by
  unfold State.clocked
  split <;> rfl

/-- The accepted uplink request's restart of the timer writes the timebase as R153 gives and sets notices at most. -/
theorem afterAnswer_accept (u : State) (p : Port) (body : AcceptBody) :
    (u.afterAnswer p true (.accept body)).time = u.clocked p
      ∧ PortsGrow (u.afterAnswer p true (.accept body)) u
      ∧ u.afterAnswer p true (.accept body)
          = { u with time := u.clocked p, ports := (u.afterAnswer p true (.accept body)).ports } := by
  unfold State.afterAnswer State.clocked State.restartStale
  by_cases hp : p = .uplink
  · simp only [hp, and_true, if_true]
    cases h : u.time.link
    · refine ⟨rfl, PortsGrow.of_ports rfl, rfl⟩
    · exact ⟨rfl, ((notify_grows ..).trans (notify_grows ..)).trans (PortsGrow.of_ports rfl), rfl⟩
  · dsimp only
    rw [if_neg (fun h => hp h.1), if_neg hp]
    exact ⟨rfl, PortsGrow.refl _, rfl⟩

theorem placeAnswer_port_self (u : State) (p : Port) (f : AnswerFrame) :
    (u.placeAnswer p f).port p = { u.port p with slot := some f } := setPort_port_self ..

theorem placeAnswer_port_ne (u : State) {p q : Port} (f : AnswerFrame) (h : q ≠ p) :
    (u.placeAnswer p f).port q = u.port q := setPort_port_ne _ _ h

/-- Placing an answer sets no notice and leaves the pending sets as they are. -/
theorem placeAnswer_notified (u : State) (p q : Port) (f : AnswerFrame) (k : Notice) :
    (u.placeAnswer p f).notified q k ↔ u.notified q k := by
  by_cases h : q = p
  · subst h; simp [State.notified, placeAnswer_port_self]
  · simp [State.notified, placeAnswer_port_ne _ _ h]

/-- What every port unit is after an answered request, from the owner's growth of the units. -/
theorem finish_ports {t u s : State} {p : Port} {n : Nat} {f : AnswerFrame} (hu : PortsFollow u (s.endRequest p n))
    (ht : PortsFollow t (u.placeAnswer p f)) :
    (t.port p).slot = some f ∧ (t.port p).transfer = .quiet ∧ t.portsKept s p := by
  refine ⟨?_, ?_, fun q => ⟨?_, fun k hk => ?_, fun h => ?_⟩⟩
  · rw [ht.slot, placeAnswer_port_self]
  · rw [ht.transfer, placeAnswer_port_self]
    show (u.port p).transfer = _
    rw [hu.transfer, endRequest_port_self]
  · rw [ht.enableSet]
    by_cases h : q = p
    · subst h
      rw [placeAnswer_port_self]
      show (u.port q).enableSet = _
      rw [hu.enableSet, endRequest_port_self]
    · rw [placeAnswer_port_ne _ _ h, hu.enableSet, endRequest_port_ne _ _ h]
  · apply ht.notified
    rw [placeAnswer_notified]
    apply hu.notified
    by_cases h : q = p
    · subst h; simpa [State.notified, endRequest_port_self] using hk
    · simpa [State.notified, endRequest_port_ne _ _ h] using hk
  · rw [ht.slot, ht.transfer, ht.dataOut, placeAnswer_port_ne _ _ h, hu.slot, hu.transfer, hu.dataOut,
      endRequest_port_ne _ _ h]
    exact ⟨rfl, rfl, rfl⟩

/-- A refused request: the answer stands in the slot and nothing but the port units is written (R176). -/
theorem finish_refuse (s : State) (p : Port) (first : Byte) (bytes : List Byte) (r : Bool) (reason : RefusalReason)
    (pins : Option PinView) (n : Nat) :
    let t := finishFrame p first bytes r ⟨s.endRequest p n, .refuse reason pins, false⟩ s
    t.answered p first bytes (.refuse reason pins) ∧ t.unchangedBy s p := by
  intro t
  have ht : PortsFollow t ((s.endRequest p n).placeAnswer p ⟨first, tagOf bytes, .refuse reason pins⟩) :=
    closeQuiet_follow ..
  obtain ⟨h1, h2, h3⟩ := finish_ports (PortsFollow.refl _) ht
  exact ⟨⟨h1, h2⟩, rfl, h3⟩

/-- An accepted request whose owner's work left the station `u`, with notices set. -/
theorem finish_accept (s u : State) (p : Port) (first : Byte) (bytes : List Byte) (body : AcceptBody) (n : Nat)
    (hu : PortsFollow u (s.endRequest p n)) :
    let t := finishFrame p first bytes true (accept body u) s
    t.answered p first bytes (.accept body) ∧ t.endsAs u p ∧ t.portsKept s p
      ∧ ∀ q k, u.notified q k → t.notified q k := by
  intro t
  obtain ⟨_, hg, he⟩ := afterAnswer_accept u p body
  let v := (u.afterAnswer p true (.accept body)).placeAnswer p ⟨first, tagOf bytes, .accept body⟩
  have htv : t = v.closeEvent s := rfl
  have ht : PortsFollow t v := closeEvent_follow ..
  obtain ⟨h1, h2, h3⟩ := finish_ports (hg.follow.trans hu) ht
  have hs := closeEvent_settlesAs v s
  have hv : v = { u with time := u.clocked p, ports := v.ports } := by
    show (u.afterAnswer p true (.accept body)).placeAnswer p _ = _
    conv_lhs => rw [he]
    rfl
  refine ⟨⟨h1, h2⟩, ?_, h3, fun q k hk => ?_⟩
  · rw [htv]
    refine ⟨?_, ?_⟩
    · have e := hs.1
      rw [hv] at e ⊢
      exact e
    · have e := hs.2
      rw [hv] at e ⊢
      have hc : (u.clocked p).config.configured = u.time.config.configured := by rw [clocked_config]
      exact sweptFrom_of_parts (u := State.withMode { u with time := u.clocked p, ports := v.ports } _) rfl hc.symm
        (clocked_clockValid u p).symm rfl rfl e
  · exact ht.notified ((placeAnswer_notified ..).2 (hg.notified hk))

/-- A mode stands through an event that changes no slot and no sequence number (R136). -/
theorem reckonMode_same {u s : State} (h : u.journal = s.journal) : u.reckonMode s = u := by
  unfold State.reckonMode
  rw [if_pos (by rw [h]; exact ⟨rfl, rfl, rfl⟩)]

/-- A request that is accepted and changes no record: what its event's end may do is all it does. -/
theorem finish_inform (s : State) (p : Port) (first : Byte) (bytes : List Byte) (body : AcceptBody) (n : Nat) :
    let t := finishFrame p first bytes true (accept body (s.endRequest p n)) s
    t.answered p first bytes (.accept body) ∧ t.informs s p := by
  intro t
  obtain ⟨h1, ⟨h2, h3⟩, h4, _⟩ := finish_accept s (s.endRequest p n) p first bytes body n (PortsFollow.refl _)
  have hm : t.journal.mode = s.journal.mode := by
    let v := ((s.endRequest p n).afterAnswer p true (.accept body)).placeAnswer p ⟨first, tagOf bytes, .accept body⟩
    have hv : v.journal = s.journal := by
      show ((s.endRequest p n).afterAnswer p true (.accept body)).journal = _
      rw [(afterAnswer_accept (s.endRequest p n) p body).2.2]
      rfl
    show (((v.reckonMode s).sweep)).journal.mode = _
    rw [sweep_journal, reckonMode_same hv, hv]
  change t = _ at h2
  change t.rail.sweptFrom _ at h3
  rw [hm] at h2 h3
  exact ⟨h1, h2, sweptFrom_of_parts rfl rfl rfl rfl rfl h3, h4⟩

/-! ## A request that its port hands to its owner -/

theorem ready_not_deaf {s : State} {p : Port} (h : s.ready p) : s.deaf p = false := by
  simp [State.deaf, h.1, h.2.1]

/-- At a ready port a frame is judged and its event finished. -/
theorem takeFrame_ready {s : State} {p : Port} (h : s.ready p) (first : Byte) (bytes : List Byte) (r : Bool)
    (judge : State → Handled) :
    takeFrame p first bytes r judge s = finishFrame p first bytes r (judge (s.endRequest p (bytes.length + 1))) s := by
  unfold takeFrame
  rw [if_neg (by simp [ready_not_deaf h])]
  simp [h.2.2]

/-- A request that passes stages 1 and 3 to 6 is its owner's. -/
theorem serve_takes {α : Type} {s : State} {kind : ReqKind} {p : Port} {bytes : List Byte}
    {read : List Byte → Except RefusalReason α} {req : α} (h : s.takes kind p bytes read req)
    (owner : α → State → Handled) :
    serve kind p bytes read owner s
      = finishFrame p kind.code bytes (kind != .factoryClear) (owner req (s.endRequest p (bytes.length + 1))) s := by
  unfold serve
  rw [takeFrame_ready h.1]
  have : (s.endRequest p (bytes.length + 1)).time.config.configured = s.time.config.configured := rfl
  simp only [this, h.2, orRefuse]

/-- A request that fails one of stages 1 and 3 to 6 is refused with that stage's reason and changes no record. -/
theorem serve_refuses {α : Type} {s : State} {kind : ReqKind} {p : Port} {bytes : List Byte}
    {read : List Byte → Except RefusalReason α} {reason : RefusalReason} (hr : s.ready p)
    (h : intake kind p bytes read s.time.config.configured = .error reason) (owner : α → State → Handled) :
    (serve kind p bytes read owner s).answered p kind.code bytes (.refuse reason none)
      ∧ (serve kind p bytes read owner s).unchangedBy s p := by
  unfold serve
  rw [takeFrame_ready hr]
  have : (s.endRequest p (bytes.length + 1)).time.config.configured = s.time.config.configured := rfl
  simp only [this, h, orRefuse]
  exact finish_refuse ..

end Sys2Proof.Machine.Laws
end

