-- ==== Sys2Proof/Laws/Docks.lean ====
section
/-! SUPPORT. What the operations that walk the dock table and the claim map do at each place: one lemma per operation. -/

namespace Sys2Proof.Machine.Laws

theorem mem_allDocks (d : DockNo) : d ∈ allDocks := List.mem_finRange d

theorem allDocks_nodup : allDocks.Nodup := List.nodup_finRange 64

theorem mem_allSlots (i : SlotNo) : i ∈ allSlots := List.mem_finRange i

theorem allSlots_nodup : allSlots.Nodup := List.nodup_finRange 4

/-! ## Walks over the dock table -/

/-- A walk whose step at a dock writes that dock alone, as `g` says, writes every dock it visits once. -/
theorem foldl_dock (f : State → DockNo → State) (g : DockNo → Dock → Dock)
    (self : ∀ s d, (f s d).dock d = g d (s.dock d)) (other : ∀ s d e, e ≠ d → (f s d).dock e = s.dock e)
    (l : List DockNo) (hl : l.Nodup) (s : State) (e : DockNo) :
    (l.foldl f s).dock e = if e ∈ l then g e (s.dock e) else s.dock e := by
  induction l generalizing s with
  | nil => simp
  | cons d ds ih =>
    rw [List.nodup_cons] at hl
    rw [List.foldl_cons, ih hl.2]
    by_cases h : e = d
    · subst h; simp [hl.1, self]
    · simp [h, other s d e h]

/-- A walk whose every step keeps a reading of the state keeps it. -/
theorem foldl_keeps {α β : Type} (f : State → α → State) (r : State → β) (h : ∀ s x, r (f s x) = r s) (l : List α)
    (s : State) : r (l.foldl f s) = r s := by
  induction l generalizing s with
  | nil => rfl
  | cons x xs ih => rw [List.foldl_cons, ih, h]

/-- A walk whose every step keeps a property keeps it. -/
theorem foldl_invariant {α : Type} (f : State → α → State) (P : State → Prop) (h : ∀ s x, P s → P (f s x)) (l : List α)
    (s : State) (hs : P s) : P (l.foldl f s) := by
  induction l generalizing s with
  | nil => exact hs
  | cons x xs ih => exact ih _ (h s x hs)

/-! ## Ends of releases and holds, at the docks -/

theorem giveUp_docks (s : State) (o : OpenOwner) (fetched : Bool) : (s.giveUp o fetched).rail.docks = s.rail.docks := by
  unfold State.giveUp
  split
  · split <;> rfl
  · rfl

@[simp] theorem giveUp_dock (s : State) (o : OpenOwner) (fetched : Bool) (e : DockNo) :
    (s.giveUp o fetched).dock e = s.dock e := by
  simp only [State.dock, giveUp_docks]

@[simp] theorem resolveDock_dock (s : State) (o : OpenOwner) (d e : DockNo) : (s.resolveDock o d).dock e = s.dock e := rfl

@[simp] theorem dropRelock_dock (s : State) (d e : DockNo) : (s.dropRelock d).dock e = s.dock e := rfl

@[simp] theorem dropOpening_dock (s : State) (d e : DockNo) : (s.dropOpening d).dock e = s.dock e := rfl

@[simp] theorem pushCommand_dock (s : State) (c : Command) (e : DockNo) : (s.pushCommand c).dock e = s.dock e := rfl

@[simp] theorem endLapsed_dock (s : State) (d : DockNo) (r : ReleaseRecord) (reason : LapseReason) (e : DockNo) :
    (s.endLapsed d r reason).dock e = s.dock e := by
  unfold State.endLapsed
  simp only [outcome_dock, clearInFlight_dock, unreserve_dock]

@[simp] theorem loseHold_dock (s : State) (d : DockNo) (h : HoldRecord) (cause : LossCause) (e : DockNo) :
    (s.loseHold d h cause).dock e = s.dock e := by
  unfold State.loseHold
  simp only [outcome_dock, clearHoldDock_dock]

theorem lapseRelease_dock_self (s : State) (d : DockNo) (b : DockedBike) (r : ReleaseRecord) (reason : LapseReason) :
    (s.lapseRelease d b r reason).dock d = { s.dock d with state := .docked b } := by
  unfold State.lapseRelease
  rw [endLapsed_dock, putDockState_dock_self, giveUp_dock]

theorem lapseRelease_dock_ne (s : State) {d e : DockNo} (b : DockedBike) (r : ReleaseRecord) (reason : LapseReason)
    (h : e ≠ d) : (s.lapseRelease d b r reason).dock e = s.dock e := by
  unfold State.lapseRelease
  rw [endLapsed_dock, putDockState_dock_ne _ _ h, giveUp_dock]

theorem expireHold_dock_self (s : State) (d : DockNo) (b : DockedBike) (h : HoldRecord) :
    (s.expireHold d b h).dock d = { s.dock d with state := .docked b } := by
  unfold State.expireHold
  rw [outcome_dock, clearHoldDock_dock, putDockState_dock_self]

theorem expireHold_dock_ne (s : State) {d e : DockNo} (b : DockedBike) (h : HoldRecord) (ne : e ≠ d) :
    (s.expireHold d b h).dock e = s.dock e := by
  unfold State.expireHold
  rw [outcome_dock, clearHoldDock_dock, putDockState_dock_ne _ _ ne]

/-! ## The tick and the quarantine at every dock -/

theorem tickDock_dock_self (s : State) (d : DockNo) : (s.tickDock d).dock d = (s.dock d).ticked := by
  unfold State.tickDock Dock.ticked
  cases h : (s.dock d).state <;> dsimp only
  case held b k =>
    split
    · rw [expireHold_dock_self]
    · rw [putDockState_dock_self]
  case unlocking b r =>
    split
    · rw [State.expireRelease, lapseRelease_dock_self]
    · rw [putDockState_dock_self]
  all_goals rw [← h]

theorem tickDock_dock_ne (s : State) {d e : DockNo} (h : e ≠ d) : (s.tickDock d).dock e = s.dock e := by
  unfold State.tickDock
  cases (s.dock d).state <;> dsimp only
  case held b k =>
    split
    · exact expireHold_dock_ne _ _ _ h
    · exact putDockState_dock_ne _ _ h
  case unlocking b r =>
    split
    · exact lapseRelease_dock_ne _ _ _ _ h
    · exact putDockState_dock_ne _ _ h

/-- A tick of the dock table controller lowers every dock's countdown by one, and ends those it finds at 1 (R10). -/
theorem tickDocks_dock (s : State) (e : DockNo) : s.tickDocks.dock e = (s.dock e).ticked := by
  unfold State.tickDocks
  rw [foldl_dock State.tickDock (fun _ x => x.ticked) tickDock_dock_self (fun s d e h => tickDock_dock_ne s h) _
    allDocks_nodup, if_pos (mem_allDocks e)]

theorem quarantineDock_dock_self (bike : Nat) (s : State) (d : DockNo) :
    (s.quarantineDock bike d).dock d = (s.dock d).quarantinedFor bike := by
  unfold State.quarantineDock Dock.quarantinedFor
  cases h : (s.dock d).state <;> dsimp only
  case held b k =>
    split
    · rw [loseHold_dock, putDockState_dock_self]
    · rw [← h]
  case unlocking b r =>
    split
    · rw [lapseRelease_dock_self]
    · rw [← h]
  all_goals rw [← h]

theorem quarantineDock_dock_ne (bike : Nat) (s : State) {d e : DockNo} (h : e ≠ d) :
    (s.quarantineDock bike d).dock e = s.dock e := by
  unfold State.quarantineDock
  cases (s.dock d).state <;> dsimp only
  case held b k =>
    split
    · rw [loseHold_dock]; exact putDockState_dock_ne _ _ h
    · rfl
  case unlocking b r =>
    split
    · exact lapseRelease_dock_ne _ _ _ _ h
    · rfl

/-- A quarantine returns every HELD dock and every UNLOCKING dock not yet fetched that records the bike (R93). -/
theorem quarantineDocks_dock (bike : Nat) (s : State) (e : DockNo) :
    (s.quarantineDocks bike).dock e = (s.dock e).quarantinedFor bike := by
  unfold State.quarantineDocks
  rw [foldl_dock (fun s d => s.quarantineDock bike d) (fun _ x => x.quarantinedFor bike)
    (quarantineDock_dock_self bike) (fun s d e h => quarantineDock_dock_ne bike s h) _ allDocks_nodup,
    if_pos (mem_allDocks e)]

/-! ## Whole tables rewritten -/

theorem mapDocks_get (f : DockNo → Dock → Dock) (v : Vector Dock 64) (d : DockNo) : (mapDocks f v)[d] = f d v[d] := by
  simp [mapDocks, allDocks]

theorem mapClaims_get (f : Fin 8 → Option Nat → Option Nat) (v : Vector (Option Nat) 8) (k : Fin 8) :
    (mapClaims f v)[k] = f k v[k] := by
  simp [mapClaims]

theorem leaveClaim_claims (s : State) (n : Nat) (k : Fin 8) :
    (s.leaveClaim n).vans.claims[k] = if s.vans.claims[k] = some n then none else s.vans.claims[k] :=
  mapClaims_get ..

theorem enterClaim_claims (s : State) (n : Nat) (c : SegmentSet) (k : Fin 8) :
    (s.enterClaim n c).vans.claims[k] = if c.getLsbD k.val then some n else s.vans.claims[k] :=
  mapClaims_get ..

end Sys2Proof.Machine.Laws
end

