-- ==== Sys2Proof/Laws/Records.lean ====
section
/-! SUPPORT. What appending, freeing and reckoning do to the journal and the reference counts, and what the lookups of
cards, faults and jobs find. -/

namespace Sys2Proof.Machine.Laws

/-! ## Appending -/

theorem append_journal (s : State) (body : RecordBody) :
    (s.append body).journal =
      { s.journal with records := s.journal.records ++ [⟨s.journal.nextSeq, s.stamp, body⟩],
                       nextSeq := s.journal.nextSeq + 1 } := rfl

theorem append_cards (s : State) (body : RecordBody) :
    (s.append body).cards = match body.card? with
      | some n => updateCard n (fun c => { c with refCount := c.refCount + 1 }) s.cards
      | none => s.cards := rfl

theorem appendIfRoom_of_room {s : State} {body : RecordBody} (h : body.slots ≤ s.freeSlots) :
    s.appendIfRoom body = s.append body := if_pos h

theorem appendIfRoom_of_full {s : State} {body : RecordBody} (h : s.freeSlots < body.slots) :
    s.appendIfRoom body = s := if_neg (Nat.not_le_of_lt h)

/-- An append outside any reservation appends or does nothing: what holds of both holds of it. -/
theorem appendIfRoom_cases (s : State) (body : RecordBody) :
    s.appendIfRoom body = s ∨ s.appendIfRoom body = s.append body := by
  unfold State.appendIfRoom
  split
  · exact Or.inr rfl
  · exact Or.inl rfl

theorem slotsOf_append (a b : List Record) : slotsOf (a ++ b) = slotsOf a + slotsOf b := by
  simp [slotsOf]

theorem namingCount_append (card : Nat) (a b : List Record) :
    namingCount card (a ++ b) = namingCount card a + namingCount card b := by
  simp [namingCount]

/-- Law 12 is kept by an append (R133). -/
theorem append_consecutive {s : State} (body : RecordBody) (h : s.journal.consecutive) :
    (s.append body).journal.consecutive := by
  obtain ⟨h1, h2⟩ := h
  constructor
  · rw [append_journal]
    simp only [List.map_append, List.map_cons, List.map_nil, h1, List.length_append, List.length_cons, List.length_nil,
      List.range'_concat, h2, Nat.one_mul, Nat.zero_add]
  · rw [append_journal]
    simp only [List.length_append, List.length_cons, List.length_nil, h2]
    omega

/-- Law 4 is kept by an append (R68). -/
theorem append_countsAgree {s : State} (body : RecordBody) (h : s.countsAgree) : (s.append body).countsAgree := by
  intro c hc
  rw [append_cards] at hc
  rw [append_journal]
  show c.refCount = namingCount c.number (s.journal.records ++ [⟨s.journal.nextSeq, s.stamp, body⟩])
  rw [namingCount_append]
  have key : namingCount c.number [⟨s.journal.nextSeq, s.stamp, body⟩]
      = if body.card? = some c.number then 1 else 0 := by
    by_cases hb : body.card? = some c.number <;> simp [namingCount, Record.names, hb]
  rw [key]
  cases hb : body.card? with
  | none =>
    rw [hb] at hc
    rw [if_neg (by simp), h c hc, Nat.add_zero]
  | some n =>
    rw [hb] at hc
    simp only [updateCard, List.mem_map] at hc
    obtain ⟨x, hx, rfl⟩ := hc
    by_cases e : x.number = n
    · rw [if_pos e, if_pos (by rw [e]), h x hx]
    · rw [if_neg e, if_neg (by simpa using Ne.symm e), h x hx, Nat.add_zero]

/-- A count is kept where the records and the counted figures of the cards are (R68). -/
theorem countsAgree_congr {s t : State} (hj : t.journal.records = s.journal.records)
    (hc : ∀ c ∈ t.cards, ∃ x ∈ s.cards, x.number = c.number ∧ x.refCount = c.refCount) (h : s.countsAgree) :
    t.countsAgree := by
  intro c hm
  obtain ⟨x, hx, hn, hr⟩ := hc c hm
  rw [← hr, h x hx, hj, hn]

/-! ## The mode at the end of an event -/

/-- The mode is right at the end of an event that began with it right (R136). -/
theorem reckonMode_modeRight {u s : State} (hs : s.journal.modeRight) (hm : u.journal.mode = s.journal.mode) :
    (u.reckonMode s).journal.modeRight := by
  unfold State.reckonMode
  split
  · next h =>
    unfold Journal.modeRight
    rw [hm, hs, Journal.free, Journal.free, Journal.lastSeq, Journal.lastSeq, h.1, h.2.1, h.2.2]
  · dsimp only
    split <;> rfl

theorem closeEvent_modeRight {u s : State} (hs : s.journal.modeRight) (hm : u.journal.mode = s.journal.mode) :
    (u.closeEvent s).journal.modeRight := by
  show ((u.reckonMode s).sweep).journal.modeRight
  rw [sweep_journal]
  exact reckonMode_modeRight hs hm

/-! ## Room on the rail (Law 2) -/

theorem dropRead_bounded {r : Rail} (d : DockNo) : (r.dropRead d).queue.length ≤ r.queue.length :=
  List.length_filter_le ..

theorem putDock_queue_le (s : State) (d : DockNo) (x : Dock) : (s.putDock d x).rail.queue.length ≤ s.rail.queue.length := by
  show (s.rail.putDock d x).queue.length ≤ _
  unfold Rail.putDock
  dsimp only
  split
  · exact dropRead_bounded d
  · exact Nat.le_refl _

theorem putDock_railBounded {s : State} (d : DockNo) (x : Dock) (h : s.railBounded) : (s.putDock d x).railBounded := by
  unfold State.railBounded at h ⊢
  have := putDock_queue_le s d x
  rw [show (s.putDock d x).rail.opens = s.rail.opens from putDock_opens ..]
  omega

theorem eraseP_found_length {α : Type} {p : α → Bool} {l : List α} {x : α} (h : l.find? p = some x) :
    (l.eraseP p).length + 1 = l.length := by
  rw [List.length_eraseP_of_mem (List.mem_of_find?_eq_some h) (List.find?_some h)]
  have := List.length_pos_of_mem (List.mem_of_find?_eq_some h)
  omega

/-- Giving an opening command up never makes the queue and the account longer together (R9). -/
theorem giveUp_railBounded {s : State} (o : OpenOwner) (fetched : Bool) (h : s.railBounded) :
    (s.giveUp o fetched).railBounded := by
  unfold State.giveUp
  split
  · split
    · next x hx =>
      have := eraseP_found_length hx
      unfold State.railBounded at h ⊢
      show (s.rail.queue ++ [_]).length + (s.rail.opens.eraseP _).length ≤ _
      rw [List.length_append, List.length_singleton]
      omega
    · exact h
  · unfold State.railBounded at h ⊢
    have : (s.rail.queue.filter (fun c => !c.ownedBy o)).length ≤ s.rail.queue.length := List.length_filter_le ..
    show (s.rail.queue.filter _).length + s.rail.opens.length ≤ _
    omega

/-- The sweep appends only where there is room (R45, R6). -/
theorem sweep_railBounded {s : State} (h : s.railBounded) : s.sweep.railBounded := by
  rcases sweep_eq s with ⟨_, e⟩ | ⟨d, hc, e, _⟩
  · rw [e]; exact h
  · have room : s.rail.hasRoom = true := by
      unfold State.sweepChoice at hc
      split at hc
      · next q => exact q.2.2.2.2.2.2
      · cases hc
    rw [e]
    unfold State.railBounded
    show (s.rail.queue ++ [_]).length + s.rail.opens.length ≤ _
    rw [List.length_append, List.length_singleton]
    have := of_decide_eq_true room
    omega

theorem closeEvent_railBounded {u : State} (s : State) (h : u.railBounded) : (u.closeEvent s).railBounded := by
  show ((u.reckonMode s).sweep).railBounded
  apply sweep_railBounded
  unfold State.railBounded at h ⊢
  rw [reckonMode_rail]
  exact h

/-! ## Lookups -/

theorem findFault_bike {bike : Nat} {faults : List FaultEntry} {e : FaultEntry} (h : findFault bike faults = some e) :
    e.bike = bike := by
  have := List.find?_some h
  simpa using this

theorem findFault_cons (bike : Nat) (e : FaultEntry) (es : List FaultEntry) :
    findFault bike (e :: es) = if e.bike = bike then some e else findFault bike es := by
  by_cases h : e.bike = bike <;> simp [findFault, h]

/-- A fault entry written stands under its bike, and every other bike's stands as it was. -/
theorem findFault_putFault (e : FaultEntry) (faults : List FaultEntry) (bike : Nat) :
    findFault bike (putFault e faults) = if e.bike = bike then some e else findFault bike faults := by
  induction faults with
  | nil => rw [putFault, findFault_cons]
  | cons x xs ih =>
    rw [putFault]
    split
    · rw [findFault_cons]
    · split
      · next h =>
        rw [findFault_cons, findFault_cons]
        by_cases q : e.bike = bike
        · rw [if_pos q, if_pos q]
        · rw [if_neg q, if_neg q, if_neg (h ▸ q)]
      · next h =>
        rw [findFault_cons, ih, findFault_cons]
        by_cases q : e.bike = bike
        · rw [if_pos q, if_pos q, if_neg (fun r => h (q.trans r.symm))]
        · rw [if_neg q, if_neg q]

theorem findFault_eraseFault (n bike : Nat) (faults : List FaultEntry) :
    findFault bike (eraseFault n faults) = if bike = n then none else findFault bike faults := by
  unfold findFault eraseFault
  rw [List.find?_filter]
  split
  · next h =>
    subst h
    rw [List.find?_eq_none]
    intro x _
    simp
  · next h =>
    congr 1
    funext x
    by_cases q : x.bike = bike
    · subst q; simp [h]
    · simp [q]

theorem findCard_eraseCard (n card : Nat) (cards : List CardEntry) :
    findCard card (eraseCard n cards) = if card = n then none else findCard card cards := by
  unfold findCard eraseCard
  rw [List.find?_filter]
  split
  · next h =>
    subst h
    rw [List.find?_eq_none]
    intro x _
    simp
  · next h =>
    congr 1
    funext x
    by_cases q : x.number = card
    · subst q; simp [h]
    · simp [q]

/-- A new entry stands under its number, and every other card's stands as it was. -/
theorem findCard_insertCard (e : CardEntry) (cards : List CardEntry) (h : findCard e.number cards = none) (card : Nat) :
    findCard card (insertCard e cards) = if e.number = card then some e else findCard card cards := by
  induction cards with
  | nil => rw [insertCard, findCard_cons]
  | cons x xs ih =>
    rw [findCard_cons] at h
    split at h
    · cases h
    · next hx =>
      rw [insertCard]
      split
      · rw [findCard_cons]
      · rw [findCard_cons, ih h, findCard_cons]
        by_cases q : e.number = card
        · rw [if_pos q, if_pos q, if_neg (fun r => hx (r.trans q.symm))]
        · rw [if_neg q, if_neg q]

/-- The slot found for a job number holds the job of that number (R103). -/
theorem slotOf_job {s : State} {number : Nat} {slot : SlotNo} (h : s.slotOf number = some slot) :
    ∃ j, s.job slot = some j ∧ j.number = number := by
  have := List.find?_some h
  cases hj : s.job slot with
  | none => rw [hj] at this; cases this
  | some j => rw [hj] at this; exact ⟨j, rfl, by simpa using this⟩

theorem slotOf_congr {s t : State} (h : t.vans = s.vans) (number : Nat) : t.slotOf number = s.slotOf number := by
  simp only [State.slotOf, State.job, h]

theorem withJob_of_slot {s : State} {number : Nat} {slot : SlotNo} {j : JobRecord} (h : s.slotOf number = some slot)
    (hj : s.job slot = some j) (work : SlotNo → JobRecord → State → State) : s.withJob number work = work slot j s := by
  unfold State.withJob
  rw [h]
  dsimp only
  rw [hj]

/-! ## The end of a job (R125) -/

theorem endJob_job_self (s : State) (slot : SlotNo) (j : JobRecord) :
    (s.endJob slot j).job slot = some { j with state := .ended, window := none } := by
  show (s.setJob slot _).job slot = _
  exact setJob_job_self ..

theorem endJob_job_ne (s : State) {slot k : SlotNo} (j : JobRecord) (h : k ≠ slot) : (s.endJob slot j).job k = s.job k := by
  show (s.setJob slot _).job k = _
  exact setJob_job_ne _ _ h

theorem endJob_journal (s : State) (slot : SlotNo) (j : JobRecord) :
    (s.endJob slot j).journal =
      { s.journal with
        records := s.journal.records ++ [⟨s.journal.nextSeq, s.stamp, .jobEnd j.endRecord⟩]
        nextSeq := s.journal.nextSeq + 1
        reserved := s.journal.reserved - reservationSize j.requested } := rfl

@[simp] theorem endJob_rail (s : State) (slot : SlotNo) (j : JobRecord) : (s.endJob slot j).rail = s.rail := rfl
@[simp] theorem endJob_rides (s : State) (slot : SlotNo) (j : JobRecord) : (s.endJob slot j).rides = s.rides := rfl
@[simp] theorem endJob_fares (s : State) (slot : SlotNo) (j : JobRecord) : (s.endJob slot j).fares = s.fares := rfl
@[simp] theorem endJob_cards (s : State) (slot : SlotNo) (j : JobRecord) : (s.endJob slot j).cards = s.cards := rfl
@[simp] theorem endJob_faults (s : State) (slot : SlotNo) (j : JobRecord) : (s.endJob slot j).faults = s.faults := rfl
@[simp] theorem endJob_time (s : State) (slot : SlotNo) (j : JobRecord) : (s.endJob slot j).time = s.time := rfl
@[simp] theorem endJob_pending (s : State) (slot : SlotNo) (j : JobRecord) : (s.endJob slot j).pending = s.pending := rfl

theorem endJob_notified (s : State) (slot : SlotNo) (j : JobRecord) :
    (s.endJob slot j).notified j.origin.port .jobEnded := notify_notified ..

theorem endJob_grows (s : State) (slot : SlotNo) (j : JobRecord) : PortsGrow (s.endJob slot j) s :=
  (notify_grows ..).trans (.trans (.of_ports (leaveClaim_ports ..)) (.trans (appendReserved_grows ..)
    (.of_ports (setJob_ports ..))))

/-- A job written back either ends or is stored, by whether an item remains OPEN. -/
theorem settleJob_cases (s : State) (slot : SlotNo) (j : JobRecord) :
    (j.openDocks = [] ∧ s.settleJob slot j = s.endJob slot j)
      ∨ (j.openDocks ≠ [] ∧ s.settleJob slot j = s.setJob slot (some j)) := by
  unfold State.settleJob
  by_cases h : j.openDocks = []
  · rw [h]; exact Or.inl ⟨rfl, rfl⟩
  · refine Or.inr ⟨h, if_neg ?_⟩
    simpa using h

/-! ## What a report does (R91 to R93, R97) -/

/-- Writing a dock and leaving its held token as it stands writes that dock alone (R5). -/
theorem putDock_withDock (s : State) (d : DockNo) (x : Dock) (h : x.state.heldToken? = (s.dock d).state.heldToken?) :
    s.putDock d x = s.withDock d x := by
  unfold State.putDock State.withDock Rail.putDock
  dsimp only
  rw [if_neg (by rintro ⟨_, q⟩; exact q h)]

/-- What a quarantine does at one dock, as the statements spell it: the fault table stands, and the ports take the notices
(R93). -/
theorem quarantineDock_effect (s u v : State) (bike : Nat) (d : DockNo)
    (huv : u = { v with faults := u.faults, ports := u.ports }) (hd : v.dock d = s.dock d) :
    u.quarantineDock bike d
      = { s.quarantineEffect bike v d with faults := u.faults, ports := (u.quarantineDock bike d).ports } := by
  generalize u.faults = F at huv
  generalize u.ports = P at huv
  subst huv
  have hu : ({ v with faults := F, ports := P } : State).dock d = s.dock d := hd
  unfold State.quarantineDock State.quarantineEffect
  rw [hu]
  cases hst : (s.dock d).state <;> dsimp only
  case held b h =>
    split
    · rw [State.putDockState, putDock_withDock _ _ _ (by rw [hu, hst]; rfl), hu]
      obtain ⟨_, _, origin⟩ := h
      cases origin <;> rfl
    · rfl
  case unlocking b r =>
    split
    · rename_i hf
      have owned : ∀ c : Command, (!c.ownedBy (.release d)) = (match c with
          | .unlock e _ => decide (e ≠ d)
          | .batchUnlock .. | .relock .. | .readToken .. => true) := by
        intro c
        cases c <;> simp [Command.ownedBy, beq_eq_decide]
      have same : ∀ (w : State) q, ({ w with rail := { w.rail with queue := q } } : State).dock d = w.dock d :=
        fun _ _ => rfl
      unfold State.lapseRelease State.giveUp
      rw [hf.2, if_neg Bool.false_ne_true, State.putDockState, putDock_withDock _ _ _ (by rw [same, hu, hst]; rfl), same,
        hu]
      simp only [owned]
      obtain ⟨_, _, _, _, _, origin⟩ := r
      cases origin <;> rfl
    · rfl

/-- What a quarantine does at the docks, as the statements spell it (R93). -/
theorem quarantineDocks_effects (s u : State) (bike : Nat) (h : u = { s with faults := u.faults, ports := u.ports }) :
    u.quarantineDocks bike
      = { s.quarantineEffects bike with faults := u.faults, ports := (u.quarantineDocks bike).ports } := by
  have key : ∀ (l : List DockNo), l.Nodup → ∀ u v : State, u = { v with faults := u.faults, ports := u.ports } →
      (∀ d ∈ l, v.dock d = s.dock d) →
      l.foldl (State.quarantineDock bike) u
        = { l.foldl (s.quarantineEffect bike) v with
            faults := u.faults, ports := (l.foldl (State.quarantineDock bike) u).ports } := by
    intro l
    induction l with
    | nil => intro _ u v h _; exact h
    | cons d ds ih =>
      intro hl u v huv hd
      rw [List.nodup_cons] at hl
      rw [List.foldl_cons, List.foldl_cons]
      have step := quarantineDock_effect s u v bike d huv (hd d (by simp))
      have same : (u.quarantineDock bike d).faults = u.faults := by rw [step]
      rw [← same]
      refine ih hl.2 _ _ (by rw [same]; exact step) (fun e he => ?_)
      have ne : e ≠ d := fun q => hl.1 (q ▸ he)
      rw [← hd e (by simp [he]), show v.dock e = u.dock e by rw [huv]; rfl,
        ← quarantineDock_dock_ne bike u ne, step]
      rfl
  exact key allDocks allDocks_nodup u s h (fun _ _ => by rfl)

/-- A report entry is pushed and the oldest is dropped beyond 4 (R91). -/
theorem pushReport_eq (x : ReportEntry) (l : List ReportEntry) : pushReport x l = (l ++ [x]).drop (l.length + 1 - 4) := by
  unfold pushReport
  simp only [show Config.reportPlaces = 4 from rfl]
  split
  · rw [List.drop_append_of_le_length (by omega)]
  · rw [show l.length + 1 - 4 = 0 by omega, List.drop_zero]

/-- The scored and judged entry of a report, as the statements spell it (R91, R92). -/
theorem scoreOn_scored (r : Report) (time threshold : Nat) (e : FaultEntry) :
    ({ r.scoreOn time e with
        quarantined := (r.scoreOn time e).quarantined || r.quarantines threshold (r.scoreOn time e) } : FaultEntry)
      = e.scored r.category r.source r.card time threshold := by
  have dup : r.duplicate e = (r.card.isSome && e.reports.any (fun x => x.card == r.card && x.category == r.category)) := by
    unfold Report.duplicate
    cases r.card <;> simp
  unfold Report.scoreOn Report.quarantines FaultEntry.scored
  simp only [pushReport_eq, dup, show Config.scoreLimit = 15 from rfl]
  congr 1
  cases e.quarantined <;> simp

/-- A report taken, as the statements spell it: the fault table with the scored entry, and outside it the dock effects of a
quarantine that starts and the FAULT record where a slot is free (R97). -/
theorem takeReport_effects (s : State) (r : Report) (p : Place) :
    let e := p.entry.scored r.category r.source r.card s.stamp s.time.config.threshold
    let starts := r.quarantines s.time.config.threshold (r.scoreOn s.stamp p.entry)
    s.takeReport r p
      = { s.reportEffects starts r.bike r.dock r.category r.source r.card e.score e.quarantined with
          faults := putFault e p.faults, ports := (s.takeReport r p).ports } := by
  intro e starts
  have he : ({ r.scoreOn s.stamp p.entry with
      quarantined := (r.scoreOn s.stamp p.entry).quarantined || starts } : FaultEntry) = e := scoreOn_scored ..
  have all : ∀ u v : State, u = { v with faults := putFault e p.faults, ports := u.ports } →
      u.appendIfRoom (r.record e.score e.quarantined)
        = { (if 1 ≤ v.freeSlots then
              match r.card with
              | some n => (v.withRecord (.fault r.bike r.dock r.category r.source r.card e.score e.quarantined)).withCard n
                  (fun c => { c with refCount := c.refCount + 1 })
              | none => v.withRecord (.fault r.bike r.dock r.category r.source r.card e.score e.quarantined)
            else v) with
            faults := putFault e p.faults
            ports := (u.appendIfRoom (r.record e.score e.quarantined)).ports } := by
    intro u v huv
    generalize u.ports = P at huv
    subst huv
    unfold State.appendIfRoom Report.record
    simp only [show ∀ a b c d f g h, (RecordBody.fault a b c d f g h).slots = 1 from fun _ _ _ _ _ _ _ => rfl]
    rw [show ({ v with faults := putFault e p.faults, ports := P } : State).freeSlots = v.freeSlots from rfl]
    split
    · cases hc : r.card <;> rfl
    · rfl
  let u := if starts then
      State.quarantineDocks r.bike
        ((State.notify .service .quarantine { s with faults := putFault e p.faults }).notify .uplink .quarantine)
    else { s with faults := putFault e p.faults }
  have taken : s.takeReport r p = u.appendIfRoom (r.record e.score e.quarantined) := by
    unfold State.takeReport
    simp only []
    rw [show r.quarantines s.time.config.threshold (r.scoreOn s.stamp p.entry) = starts from rfl, he,
      show (r.scoreOn s.stamp p.entry).score = e.score from by rw [← he],
      show ((r.scoreOn s.stamp p.entry).quarantined || starts) = e.quarantined from by rw [← he]]
  have effects : u = { (if starts then s.quarantineEffects r.bike else s) with
      faults := putFault e p.faults, ports := u.ports } := by
    by_cases h : starts = true
    · simp only [u, if_pos h]
      exact quarantineDocks_effects s _ r.bike rfl
    · simp only [u, if_neg h]
  rw [taken]
  exact all u _ effects

end Sys2Proof.Machine.Laws
end

