-- ==== Sys2Proof/Laws/Jobs.lean ====
section
/-! SUPPORT. Walks: the docks of a segment and of a walk by arithmetic (R105), and what a marking walk marks and how it
ends (R113). -/

namespace Sys2Proof.Machine.Laws

/-! ## Segments -/

/-- A dock position lies in the segment whose docks come after those of the segments before it (R156). -/
theorem segmentAt_eq_some {sizes : List Nat} {i k : Nat} :
    segmentAt sizes i = some k ↔
      ∃ front size back, sizes = front ++ size :: back ∧ front.length = k ∧ front.sum ≤ i ∧ i < front.sum + size := by
  induction sizes generalizing i k with
  | nil => simp [segmentAt]
  | cons n ns ih =>
    rw [segmentAt]
    split
    · next h =>
      constructor
      · rintro ⟨⟩
        exact ⟨[], n, ns, rfl, rfl, by simp, by simpa using h⟩
      · rintro ⟨front, size, back, he, hl, h1, h2⟩
        cases front with
        | nil => simp at hl; rw [← hl]
        | cons x xs =>
          simp only [List.cons_append, List.cons.injEq] at he
          simp only [List.sum_cons] at h1
          omega
    · next h =>
      rw [Option.map_eq_some_iff]
      constructor
      · rintro ⟨m, hm, rfl⟩
        obtain ⟨front, size, back, he, hl, h1, h2⟩ := ih.1 hm
        exact ⟨n :: front, size, back, by rw [he]; rfl, by rw [← hl]; rfl, by rw [List.sum_cons]; omega,
          by rw [List.sum_cons]; omega⟩
      · rintro ⟨front, size, back, he, hl, h1, h2⟩
        cases front with
        | nil =>
          simp only [List.nil_append, List.cons.injEq] at he
          simp only [List.sum_nil] at h2
          omega
        | cons x xs =>
          simp only [List.cons_append, List.cons.injEq] at he
          simp only [List.sum_cons] at h1 h2
          exact ⟨xs.length, ih.2 ⟨xs, size, back, he.2, rfl, by omega, by omega⟩, by rw [← hl]; rfl⟩

theorem segmentAt_front {front back : List Nat} {size i : Nat} (h1 : front.sum ≤ i) (h2 : i < front.sum + size) :
    segmentAt (front ++ size :: back) i = some front.length :=
  segmentAt_eq_some.2 ⟨front, size, back, rfl, rfl, h1, h2⟩

/-- A position lies in at most one segment, and every position of that segment lies between its ends. -/
theorem segmentAt_front_iff {front back : List Nat} {size i : Nat} :
    segmentAt (front ++ size :: back) i = some front.length ↔ front.sum ≤ i ∧ i < front.sum + size := by
  constructor
  · intro h
    obtain ⟨f, s, b, he, hl, h1, h2⟩ := segmentAt_eq_some.1 h
    obtain ⟨hf, hb⟩ := List.append_inj he hl.symm
    rw [← hf] at h1 h2
    simp only [List.cons.injEq] at hb
    rw [← hb.1] at h2
    exact ⟨h1, h2⟩
  · rintro ⟨h1, h2⟩
    exact segmentAt_front h1 h2

/-- Sound segments hold at most 64 docks together. -/
theorem segmentsSound_sum {c : StationConfig} (h : c.segmentsSound) : c.segments.sum ≤ 64 := by
  have key : ∀ l : List Nat, (∀ n ∈ l, 1 ≤ n ∧ n ≤ 8) → l.sum ≤ 8 * l.length := by
    intro l
    induction l with
    | nil => simp
    | cons x xs ih =>
      intro hl
      have := (hl x (by simp)).2
      have := ih (fun n hn => hl n (by simp [hn]))
      rw [List.sum_cons, List.length_cons]
      omega
  have := key c.segments h.2
  have := h.1
  omega

/-! ## Runs of docks -/

/-- The docks from one position up to another, ascending, as positions. -/
theorem allDocks_run {lo hi : Nat} (h : hi ≤ 64) {p : DockNo → Bool} (hp : ∀ d : DockNo, p d = true ↔ lo ≤ d.val ∧ d.val < hi) :
    (allDocks.filter p).map Fin.val = List.range' lo (hi - lo) := by
  apply List.Pairwise.eq_of_mem_iff (r := (· < ·))
  · rw [List.pairwise_map]
    exact (List.pairwise_lt_finRange 64).filter _
  · exact List.pairwise_lt_range' ..
  · intro x
    simp only [List.mem_map, List.mem_filter, hp, List.mem_range'_1]
    constructor
    · rintro ⟨d, ⟨_, h1, h2⟩, rfl⟩
      omega
    · intro hx
      exact ⟨⟨x, by omega⟩, ⟨List.mem_finRange _, by dsimp only; omega⟩, rfl⟩

/-- A run that turns at its end: positions counted round a segment of `size` docks from its place `o`. -/
theorem range_turn {first size o : Nat} (h : o < size) :
    (List.range size).map (fun k => first + (o + k) % size)
      = List.range' (first + o) (size - o) ++ List.range' first o := by
  apply List.ext_getElem
  · simp; omega
  · intro i h1 h2
    simp only [List.length_map, List.length_range] at h1
    rw [List.getElem_append]
    simp only [List.getElem_map, List.getElem_range, List.length_range', List.getElem_range', Nat.one_mul]
    split
    · rw [Nat.mod_eq_of_lt (by omega)]; omega
    · rw [Nat.mod_eq_sub_mod (by omega), Nat.mod_eq_of_lt (by omega)]; omega

/-- The same run counted down. -/
theorem range_turn_down {first size o : Nat} (h : o < size) :
    (List.range size).map (fun k => first + (o + size - k) % size)
      = (List.range' first (o + 1)).reverse ++ (List.range' (first + o + 1) (size - o - 1)).reverse := by
  apply List.ext_getElem
  · simp; omega
  · intro i h1 h2
    simp only [List.length_map, List.length_range] at h1
    rw [List.getElem_append]
    simp only [List.getElem_map, List.getElem_range, List.length_reverse, List.length_range', List.getElem_reverse,
      List.getElem_range', Nat.one_mul]
    split
    · rw [Nat.mod_eq_sub_mod (by omega), Nat.mod_eq_of_lt (by omega)]; omega
    · rw [Nat.mod_eq_of_lt (by omega)]; omega

/-! ## The sequence of a walk (R105) -/

theorem segmentDocks_front {c : StationConfig} {front back : List Nat} {size : Nat} (he : c.segments = front ++ size :: back)
    (d : DockNo) : d ∈ c.segmentDocks front.length ↔ front.sum ≤ d.val ∧ d.val < front.sum + size := by
  unfold StationConfig.segmentDocks StationConfig.segmentOf
  rw [List.mem_filter, he, beq_iff_eq, segmentAt_front_iff]
  exact and_iff_right (List.mem_finRange d)

/-- The docks of a segment that lie in a run of positions inside it. -/
theorem segmentDocks_run {c : StationConfig} {front back : List Nat} {size lo hi : Nat} (hs : c.segmentsSound)
    (he : c.segments = front ++ size :: back) (h1 : front.sum ≤ lo) (h2 : hi ≤ front.sum + size) {p : DockNo → Bool}
    (hp : ∀ d : DockNo, front.sum ≤ d.val → d.val < front.sum + size → (p d = true ↔ lo ≤ d.val ∧ d.val < hi)) :
    ((c.segmentDocks front.length).filter p).map Fin.val = List.range' lo (hi - lo) := by
  have hsum := segmentsSound_sum hs
  rw [he, List.sum_append, List.sum_cons] at hsum
  unfold StationConfig.segmentDocks
  rw [List.filter_filter]
  refine allDocks_run (by omega) fun d => ?_
  have hm : (c.segmentOf d == some front.length) = true ↔ front.sum ≤ d.val ∧ d.val < front.sum + size := by
    unfold StationConfig.segmentOf
    rw [he, beq_iff_eq, segmentAt_front_iff]
  rw [Bool.and_eq_true, hm]
  constructor
  · rintro ⟨a, b⟩; exact (hp d b.1 b.2).1 a
  · intro a
    have b : front.sum ≤ d.val ∧ d.val < front.sum + size := by omega
    exact ⟨(hp d b.1 b.2).2 a, b⟩

theorem segmentOf_front {c : StationConfig} {front back : List Nat} {size : Nat} {start : DockNo}
    (he : c.segments = front ++ size :: back) (h1 : front.sum ≤ start.val) (h2 : start.val < front.sum + size) :
    c.segmentOf start = some front.length := by
  unfold StationConfig.segmentOf
  rw [he]
  exact segmentAt_front h1 h2

/-- WRAP UP: from the start dock to the last of its segment, then from the first to the one before the start dock. -/
theorem walk_wrap_up {c : StationConfig} {start : DockNo} {front back : List Nat} {size : Nat} (hs : c.segmentsSound)
    (he : c.segments = front ++ size :: back) (h1 : front.sum ≤ start.val) (h2 : start.val < front.sum + size) :
    (c.walk start .up .wrap).map Fin.val
      = List.range' start.val (front.sum + size - start.val) ++ List.range' front.sum (start.val - front.sum) := by
  unfold StationConfig.walk
  dsimp only
  rw [segmentOf_front he h1 h2, Option.getD_some, List.map_append,
    segmentDocks_run hs he h1 (Nat.le_refl _) (fun d _ hd => by rw [decide_eq_true_eq, Fin.le_def]; omega),
    segmentDocks_run hs he (Nat.le_refl _) (Nat.le_of_lt h2) (fun d hd _ => by rw [decide_eq_true_eq, Fin.lt_def]; omega)]

/-- WRAP DOWN: from the start dock to the first of its segment, then from the last to the one after the start dock. -/
theorem walk_wrap_down {c : StationConfig} {start : DockNo} {front back : List Nat} {size : Nat} (hs : c.segmentsSound)
    (he : c.segments = front ++ size :: back) (h1 : front.sum ≤ start.val) (h2 : start.val < front.sum + size) :
    (c.walk start .down .wrap).map Fin.val
      = (List.range' front.sum (start.val + 1 - front.sum)).reverse
        ++ (List.range' (start.val + 1) (front.sum + size - (start.val + 1))).reverse := by
  unfold StationConfig.walk
  dsimp only
  rw [segmentOf_front he h1 h2, Option.getD_some, List.map_append, List.map_reverse, List.map_reverse,
    segmentDocks_run hs he (Nat.le_refl _) (by omega : start.val + 1 ≤ front.sum + size)
      (fun d hd _ => by rw [decide_eq_true_eq, Fin.le_def]; omega),
    segmentDocks_run hs he (by omega : front.sum ≤ start.val + 1) (Nat.le_refl _)
      (fun d _ hd => by rw [decide_eq_true_eq, Fin.lt_def]; omega)]

/-- CROSS UP: from the start dock to dock N. -/
theorem walk_cross_up {c : StationConfig} (start : DockNo) (hs : c.segmentsSound) :
    (c.walk start .up .cross).map Fin.val = List.range' start.val (c.segments.sum - start.val) := by
  unfold StationConfig.walk StationConfig.stationDocks StationConfig.dockCount
  dsimp only
  rw [List.filter_filter]
  refine allDocks_run (segmentsSound_sum hs) fun d => ?_
  rw [Bool.and_eq_true, decide_eq_true_eq, decide_eq_true_eq, Fin.le_def]

/-- CROSS DOWN: from the start dock to dock 1. -/
theorem walk_cross_down {c : StationConfig} {start : DockNo} (hn : start.val < c.segments.sum) :
    (c.walk start .down .cross).map Fin.val = (List.range' 0 (start.val + 1)).reverse := by
  have := start.isLt
  unfold StationConfig.walk StationConfig.stationDocks StationConfig.dockCount
  dsimp only
  rw [List.filter_filter, List.map_reverse, allDocks_run (lo := 0) (hi := start.val + 1) (by omega) fun d => ?_]
  · rfl
  · rw [Bool.and_eq_true, decide_eq_true_eq, decide_eq_true_eq, Fin.le_def]
    omega

/-! ## What a marking walk marks, and how it ends (R113) -/

/-- The docks a walk marks: the first it judges so, before the first that stops it. -/
theorem walkMarks_marks (judge : DockNo → Judgement) (n : Nat) (l : List DockNo) :
    (walkMarks judge n l).1
      = ((l.takeWhile (fun d => decide (judge d ≠ .stop))).filter (fun d => decide (judge d = .mark))).take n := by
  induction l generalizing n with
  | nil => cases n <;> simp [walkMarks]
  | cons d ds ih =>
    cases n with
    | zero => simp [walkMarks]
    | succ n =>
      rw [walkMarks]
      cases h : judge d <;> simp [h, ih]

/-- How a walk ends: full where it found enough docks, else at the dock that stops it, or at the end of its sequence. -/
theorem walkMarks_end (judge : DockNo → Judgement) (n : Nat) (l : List DockNo) :
    (walkMarks judge n l).2
      = if n ≤ ((l.takeWhile (fun d => decide (judge d ≠ .stop))).filter (fun d => decide (judge d = .mark))).length
        then WalkEnd.full
        else match l.find? (fun d => decide (judge d = .stop)) with
          | some d => .stopped d
          | none => .ranOut := by
  induction l generalizing n with
  | nil => cases n <;> simp [walkMarks]
  | cons d ds ih =>
    cases n with
    | zero => simp [walkMarks]
    | succ n =>
      rw [walkMarks]
      cases h : judge d <;> simp [h, ih]

end Sys2Proof.Machine.Laws
end

