-- ==== Sys2Proof/Laws/Spelled.lean ====
section
/-! SUPPORT. The model's choices, rail writes and countdowns, as the statements spell them. -/

namespace Sys2Proof.Machine.Laws

/-! ## The entry a full table gives up (R70, R95) -/

theorem pickBest_eq_none {α : Type} {better : α → α → Bool} {l : List α} : pickBest better l = none ↔ l = [] := by
  cases l with
  | nil => simp [pickBest]
  | cons x xs =>
    simp only [pickBest, reduceCtorEq, iff_false]
    split
    · simp
    · split <;> simp

/-- Of a strict weak order, the picked element is one that no other is better than. -/
theorem pickBest_least {α : Type} {better : α → α → Bool} (asymm : ∀ a b, better a b = true → better b a = false)
    (trans : ∀ a b c, better a b = false → better b c = false → better a c = false) {l : List α} {x : α}
    (h : pickBest better l = some x) : x ∈ l ∧ ∀ y ∈ l, better y x = false := by
  have irrefl : ∀ a, better a a = false := fun a => by
    cases q : better a a with
    | false => rfl
    | true => rw [← asymm a a q, q]
  induction l generalizing x with
  | nil => cases h
  | cons a as ih =>
    simp only [pickBest] at h
    split at h
    · next hn =>
      cases h
      rw [pickBest_eq_none] at hn
      subst hn
      exact ⟨by simp, fun y hy => by rw [List.mem_singleton.1 hy]; exact irrefl a⟩
    · next b hb =>
      obtain ⟨hm, hl⟩ := ih hb
      split at h <;> cases h
      · next q =>
        refine ⟨List.mem_cons_of_mem _ hm, fun y hy => ?_⟩
        rcases List.mem_cons.1 hy with rfl | hy
        · exact asymm _ _ q
        · exact hl y hy
      · next q =>
        refine ⟨by simp, fun y hy => ?_⟩
        rcases List.mem_cons.1 hy with rfl | hy
        · exact irrefl _
        · exact trans y b a (hl y hy) (by simpa using q)

theorem pinned_iff_loose (c : CardEntry) : (!c.pinned) = true ↔ c.loose := by
  unfold CardEntry.pinned CardEntry.loose
  cases c.inFlight <;> cases c.holdDock <;> simp

/-- A new card entry finds no room exactly where the table is full of pinned entries (R70). -/
theorem roomForCard_eq_none (s : State) : roomForCard s.cards = none ↔ s.cardsPinned := by
  unfold roomForCard State.cardsPinned evictee
  rw [show Config.cardPlaces = 1024 from rfl]
  split
  · next h => simp only [reduceCtorEq, false_iff]; omega
  · next h =>
    have none : pickBest evictsFirst (s.cards.filter (fun c => !c.pinned)) = none ↔ ∀ c ∈ s.cards, ¬ c.loose := by
      rw [pickBest_eq_none, List.filter_eq_nil_iff]
      simp only [pinned_iff_loose]
    rw [← none]
    split <;> simp_all

/-- The room found for a new card entry evicts what R70 says, and leaves the table without it. -/
theorem roomForCard_evicts {s : State} {left : List CardEntry} {evicted : Option Nat}
    (h : roomForCard s.cards = some (left, evicted)) :
    s.evicts evicted ∧ left = s.cards.filter (fun c => decide (evicted ≠ some c.number)) := by
  unfold roomForCard evictee at h
  rw [show Config.cardPlaces = 1024 from rfl] at h
  split at h
  · next hl => cases h; exact ⟨Or.inl ⟨hl, rfl⟩, by simp⟩
  · next hl =>
    split at h
    · next c hc =>
      cases h
      have best := pickBest_least (better := evictsFirst)
        (fun a b => by simp only [evictsFirst, Bool.or_eq_true, Bool.or_eq_false_iff, Bool.and_eq_true,
          Bool.and_eq_false_iff, decide_eq_true_eq, decide_eq_false_iff_not]; omega)
        (fun a b c => by simp only [evictsFirst, Bool.or_eq_false_iff, Bool.and_eq_false_iff, decide_eq_false_iff_not];
                         omega) hc
      rw [List.mem_filter, pinned_iff_loose] at best
      refine ⟨Or.inr ⟨by omega, c, best.1.1, best.1.2, rfl, fun x hx hp ne => ?_⟩, ?_⟩
      · have := best.2 x (List.mem_filter.2 ⟨hx, (pinned_iff_loose x).2 hp⟩)
        simp only [evictsFirst, Bool.or_eq_false_iff, Bool.and_eq_false_iff, decide_eq_false_iff_not] at this
        omega
      · exact List.filter_congr (fun x _ => by simp [eq_comm, bne, beq_eq_decide])
    · cases h

/-- What R70 says is evicted is what the room found evicts. -/
theorem evicts_roomForCard {s : State} {evicted : Option Nat} (h : s.evicts evicted) :
    ∃ left, roomForCard s.cards = some (left, evicted) := by
  cases hr : roomForCard s.cards with
  | none =>
    rw [roomForCard_eq_none] at hr
    rcases h with ⟨hl, _⟩ | ⟨_, c, hc, hp, _⟩
    · have := hr.1; omega
    · exact absurd hp (hr.2 c hc)
  | some room =>
    obtain ⟨left, e⟩ := room
    refine ⟨left, ?_⟩
    obtain ⟨he, _⟩ := roomForCard_evicts hr
    rcases h with ⟨hl, rfl⟩ | ⟨hl, c, hc, hp, rfl, hb⟩ <;> rcases he with ⟨hl', rfl⟩ | ⟨hl', c', hc', hp', rfl, hb'⟩
    · rfl
    · omega
    · omega
    · by_cases q : c'.number = c.number
      · rw [q]
      · have := hb c' hc' hp' q
        have := hb' c hc hp (Ne.symm q)
        omega

/-- A report finds no place exactly where its bike has no entry in a table full of quarantined bikes (R96). -/
theorem placeReport_eq_none (s : State) (bike : Nat) : s.placeReport bike = none ↔ s.faultsQuarantined bike := by
  unfold State.placeReport State.faultsQuarantined replacee
  rw [show Config.faultPlaces = 128 from rfl]
  cases s.fault bike with
  | some e => simp
  | none =>
    dsimp only
    split
    · next h => simp only [reduceCtorEq, false_iff]; omega
    · next h =>
      have none : pickBest replacedFirst (s.faults.filter (fun e => !e.quarantined)) = none
          ↔ ∀ e ∈ s.faults, e.quarantined = true := by
        rw [pickBest_eq_none, List.filter_eq_nil_iff]
        simp
      rw [show (∀ e ∈ s.faults, e.quarantined = true) ↔ _ from none.symm]
      split <;> simp_all

/-- The place found for a report is the one of R90 and R95, and the table is left without the entry replaced. -/
theorem placeReport_scoresOn {s : State} {bike : Nat} {place : Place} (h : s.placeReport bike = some place) :
    s.scoresOn bike place.entry place.created place.replaced
      ∧ place.faults = s.faults.filter (fun e => decide (place.replaced ≠ some e.bike)) := by
  unfold State.placeReport replacee at h
  rw [show Config.faultPlaces = 128 from rfl] at h
  unfold State.scoresOn
  split at h
  · next e he => cases h; exact ⟨Or.inl ⟨he, rfl, rfl⟩, by simp⟩
  · next he =>
    split at h
    · next hl => cases h; exact ⟨Or.inr ⟨he, rfl, rfl, Or.inl ⟨hl, rfl⟩⟩, by simp⟩
    · next hl =>
      split at h
      · next old ho =>
        cases h
        have best := pickBest_least (better := replacedFirst)
          (fun a b => by simp only [replacedFirst, Bool.or_eq_true, Bool.or_eq_false_iff, Bool.and_eq_true,
            Bool.and_eq_false_iff, decide_eq_true_eq, decide_eq_false_iff_not]; omega)
          (fun a b c => by simp only [replacedFirst, Bool.or_eq_false_iff, Bool.and_eq_false_iff, decide_eq_false_iff_not];
                           omega) ho
        rw [List.mem_filter] at best
        refine ⟨Or.inr ⟨he, rfl, rfl, Or.inr ⟨by omega, old, best.1.1, by simpa using best.1.2, rfl,
          fun x hx hq ne => ?_⟩⟩, ?_⟩
        · have := best.2 x (List.mem_filter.2 ⟨hx, by simp [hq]⟩)
          simp only [replacedFirst, Bool.or_eq_false_iff, Bool.and_eq_false_iff, decide_eq_false_iff_not] at this
          omega
        · exact List.filter_congr (fun x _ => by simp [eq_comm, bne, beq_eq_decide])
      · cases h

/-- The place of R90 and R95 is the one found. -/
theorem scoresOn_placeReport {s : State} {bike : Nat} {old : FaultEntry} {created : Bool} {replaced : Option Nat}
    (h : s.scoresOn bike old created replaced) :
    ∃ faults, s.placeReport bike = some ⟨old, faults, created, replaced⟩ := by
  cases hp : s.placeReport bike with
  | none =>
    obtain ⟨hn, hl, hq⟩ := (placeReport_eq_none s bike).1 hp
    rcases h with ⟨he, _⟩ | ⟨_, _, _, ⟨hl', _⟩ | ⟨_, e, he, hf, _⟩⟩
    · rw [hn] at he; cases he
    · omega
    · rw [hq e he] at hf; cases hf
  | some place =>
    obtain ⟨entry, faults, created', replaced'⟩ := place
    refine ⟨faults, ?_⟩
    obtain ⟨hs, _⟩ := placeReport_scoresOn hp
    dsimp only at hs
    rcases h with ⟨he, rfl, rfl⟩ | ⟨hn, rfl, rfl, hr⟩ <;> rcases hs with ⟨he', rfl, rfl⟩ | ⟨hn', rfl, rfl, hr'⟩
    · rw [he] at he'; cases he'; rfl
    · rw [he] at hn'; cases hn'
    · rw [hn] at he'; cases he'
    · rcases hr with ⟨hl, rfl⟩ | ⟨hl, e, hm, hq, rfl, hb⟩ <;> rcases hr' with ⟨hl', rfl⟩ | ⟨hl', e', hm', hq', rfl, hb'⟩
      · rfl
      · omega
      · omega
      · by_cases q : e'.bike = e.bike
        · rw [q]
        · have := hb e' hm' hq' q
          have := hb' e hm hq (Ne.symm q)
          omega

/-! ## A dock leaves the command that was to open it (R8, R11) -/

theorem withoutOpening_opensNoMore (d : DockNo) (c : Command) : c.withoutOpening d = c.opensNoMore d := by
  cases c <;> simp only [Command.withoutOpening, Command.opensNoMore]
  case batchUnlock n docks =>
    rw [show docks.filter (fun x => x != d) = docks.filter (fun x => decide (x ≠ d)) from
      List.filter_congr (fun x _ => by simp [bne, beq_eq_decide])]
    split
    · next h => rw [if_pos h]
    · next h => rw [if_neg (by rw [h]; simp), h]

theorem resolveOpen_resolvesTo (r : Rail) (owner : OpenOwner) (d : DockNo) :
    r.resolvesTo owner d (resolveOpen owner d r.opens) := by
  unfold Rail.resolvesTo
  have same : ∀ l : List DockNo, l.filter (fun x => x != d) = l.filter (fun x => decide (x ≠ d)) :=
    fun l => List.filter_congr (fun x _ => by simp [bne, beq_eq_decide])
  induction r.opens with
  | nil => exact Or.inl ⟨by simp, rfl⟩
  | cons o os ih =>
    by_cases q : o.owner = owner
    · refine Or.inr ⟨[], o, os, rfl, q, by simp, ?_⟩
      simp only [resolveOpen, if_pos q, same]
      split
      · next h => rw [if_pos h]; rfl
      · next h => rw [if_neg (by rw [h]; simp), h]; rfl
    · simp only [resolveOpen, if_neg q]
      rcases ih with ⟨hn, he⟩ | ⟨before, x, after, he, hx, hb, hl⟩
      · exact Or.inl ⟨fun x hx => (List.mem_cons.1 hx).elim (fun e => e ▸ q) (hn x), by rw [he]⟩
      · refine Or.inr ⟨o :: before, x, after, by rw [he]; rfl, hx,
          fun y hy => (List.mem_cons.1 hy).elim (fun e => e ▸ q) (hb y), ?_⟩
        dsimp only at hl
        rw [hl]
        rfl

theorem ownedBy_false (c : Command) (owner : OpenOwner) :
    (!c.ownedBy owner) = (match c with
      | .unlock d _ => decide (owner ≠ .release d)
      | .batchUnlock n _ => decide (owner ≠ .job n)
      | .relock _ | .readToken _ => true) := by
  cases c <;> cases owner <;> simp [Command.ownedBy, beq_eq_decide, eq_comm]

/-- An opening command given up leaves the rail of R9; outside it the ports alone take the notice of a RELOCK. -/
theorem giveUp_givenUp (s : State) (owner : OpenOwner) (fetched : Bool) :
    s.giveUp owner fetched
      = { s with rail := s.rail.givenUp owner fetched, ports := (s.giveUp owner fetched).ports } := by
  unfold State.giveUp Rail.givenUp
  by_cases hf : fetched = true
  · rw [if_pos hf, if_pos hf]
    cases s.rail.opens.find? (fun o => o.owner == owner) with
    | none => rfl
    | some o =>
      dsimp only
      rw [show ascending o.openDocks = (List.finRange 64).filter (fun d => decide (d ∈ o.openDocks)) from
        List.filter_congr (fun x _ => by simp)]
      rfl
  · rw [if_neg hf, if_neg hf]
    exact congrArg (fun q => ({ s with rail := { s.rail with queue := q } } : State))
      (List.filter_congr (fun c _ => ownedBy_false c owner))

theorem givenUp_docks (r : Rail) (docks : Vector Dock 64) (owner : OpenOwner) (fetched : Bool) :
    ({ r with docks := docks } : Rail).givenUp owner fetched = { r.givenUp owner fetched with docks := docks } := by
  unfold Rail.givenUp
  dsimp only
  split
  · split <;> rfl
  · rfl

/-- A release that lapses gives up its UNLOCK (R9, R32), its dock written anew, in either order. -/
theorem lapseRelease_effect (u : State) (d : DockNo) (b : DockedBike) (r : ReleaseRecord) (reason : LapseReason)
    (hst : (u.dock d).state = .unlocking b r) :
    let v := u.withDock d { u.dock d with state := .docked b }
    u.lapseRelease d b r reason
      = { ((({ v with rail := v.rail.givenUp (.release d) r.fetched }).withReserved (u.journal.reserved - 1)).withCard r.card
            (fun c => { c with inFlight := none })).withOutcome r.origin (.releaseLapsed r.ride reason) r.card d with
          ports := (u.lapseRelease d b r reason).ports } := by
  intro v
  have same : (u.giveUp (.release d) r.fetched).dock d = u.dock d := giveUp_dock ..
  have railed : (u.giveUp (.release d) r.fetched).withDock d { u.dock d with state := .docked b }
      = { u with rail := v.rail.givenUp (.release d) r.fetched, ports := (u.giveUp (.release d) r.fetched).ports } := by
    have docks : (u.rail.givenUp (.release d) r.fetched).docks = u.rail.docks := by
      rw [← giveUp_docks u (.release d) r.fetched]
      rw [giveUp_givenUp]
    rw [show v.rail = { u.rail with docks := u.rail.docks.set d { u.dock d with state := .docked b } } from rfl, givenUp_docks,
      ← docks]
    conv_lhs => rw [giveUp_givenUp]
    rfl
  unfold State.lapseRelease
  rw [State.putDockState, putDock_withDock _ _ _ (by rw [same, hst]; rfl), same, railed]
  obtain ⟨_, _, _, _, _, origin⟩ := r
  cases origin <;> rfl

/-! ## A tick at the docks (R10) -/

/-- What a tick does at one dock, as the statements spell it: the ports take the notices. -/
theorem tickDock_effect (s u v : State) (d : DockNo) (huv : u = { v with ports := u.ports }) (hd : v.dock d = s.dock d) :
    u.tickDock d = { s.countdownEffect v d with ports := (u.tickDock d).ports } := by
  generalize u.ports = P at huv
  subst huv
  have hu : ({ v with ports := P } : State).dock d = s.dock d := hd
  unfold State.tickDock State.countdownEffect
  rw [hu]
  cases hst : (s.dock d).state <;> dsimp only
  case held b h =>
    have tick : (s.dock d).ticked = { s.dock d with
        state := if h.remaining ≤ 1 then .docked b else .held b { h with remaining := h.remaining - 1 } } := by
      unfold Dock.ticked
      rw [hst]
    rw [tick]
    split
    · unfold State.expireHold
      rw [State.putDockState, putDock_withDock _ _ _ (by rw [hu, hst]; rfl), hu]
      obtain ⟨_, _, origin⟩ := h
      cases origin <;> rfl
    · rw [State.putDockState, putDock_withDock _ _ _ (by rw [hu, hst]; rfl), hu]
      rfl
  case unlocking b r =>
    have tick : (s.dock d).ticked = { s.dock d with
        state := if r.window ≤ 1 then .docked b else .unlocking b { r with window := r.window - 1 } } := by
      unfold Dock.ticked
      rw [hst]
    rw [tick]
    split
    · unfold State.expireRelease
      have := lapseRelease_effect { v with ports := P } d b r r.expiryReason (by rw [hu, hst])
      rw [hu] at this
      rw [this]
      obtain ⟨_, _, _, _, _, origin⟩ := r
      cases origin <;> rfl
    · rw [State.putDockState, putDock_withDock _ _ _ (by rw [hu, hst]; rfl), hu]
      rfl

/-- What a tick does at the docks, as the statements spell it: outside the ports, the effects of R10 in ascending dock
number. -/
theorem tickDocks_effects (s : State) : s.tickDocks = { s.countdownEffects with ports := s.tickDocks.ports } := by
  have key : ∀ (l : List DockNo), l.Nodup → ∀ u v : State, u = { v with ports := u.ports } →
      (∀ d ∈ l, v.dock d = s.dock d) →
      l.foldl State.tickDock u
        = { l.foldl s.countdownEffect v with ports := (l.foldl State.tickDock u).ports } := by
    intro l
    induction l with
    | nil => intro _ u v h _; exact h
    | cons d ds ih =>
      intro hl u v huv hd
      rw [List.nodup_cons] at hl
      rw [List.foldl_cons, List.foldl_cons]
      have step := tickDock_effect s u v d huv (hd d (by simp))
      refine ih hl.2 _ _ step (fun e he => ?_)
      have ne : e ≠ d := fun q => hl.1 (q ▸ he)
      rw [← hd e (by simp [he]), show v.dock e = u.dock e by rw [huv]; rfl, ← tickDock_dock_ne u ne, step]
      rfl
  exact key allDocks allDocks_nodup s s rfl (fun _ _ => rfl)

/-! ## A tick at the van jobs (R123) -/

/-- A marked dock given back to no job: DOCKED with its bike, or EMPTY. -/
def returned (x : Dock) : Dock :=
  match x.state with
  | .vanHeld b _ => { x with state := .docked b }
  | .vanReserved _ => { x with state := .empty }
  | .absent | .empty | .docked _ | .held _ _ | .unlocking _ _ | .outOfService _ _ => x

theorem withDock_same (s : State) (d : DockNo) : s.withDock d (s.dock d) = s := by
  have : s.rail.docks.set d (s.dock d) = s.rail.docks := Vector.set_getElem_self d.isLt
  unfold State.withDock
  rw [this]

/-- Giving one dock back, as the statements spell it from the station as the tick began: a dock already given back by another
job of the tick stands. -/
theorem returnDock_effect {s v : State} {d : DockNo} (hd : v.dock d = s.dock d ∨ v.dock d = returned (s.dock d)) :
    v.returnDock d = s.returnEffect v d := by
  unfold returned at hd
  unfold State.returnDock State.returnEffect
  rcases hd with hd | hd
  · rw [hd]
    cases hst : (s.dock d).state <;> dsimp only
    · rw [State.putDockState, putDock_withDock _ _ _ (by rw [hd, hst]; rfl), hd]
    · rw [State.putDockState, putDock_withDock _ _ _ (by rw [hd, hst]; rfl), hd]
  · cases hst : (s.dock d).state <;> rw [hst] at hd <;> dsimp only at hd ⊢ <;> rw [hd]
    all_goals first
      | rw [hst]
      | (dsimp only; rw [← hd, withDock_same])

theorem returnDock_dock (v : State) (d e : DockNo) :
    (v.returnDock d).dock e = if e = d then returned (v.dock d) else v.dock e := by
  unfold State.returnDock returned
  split <;> rename_i hst <;> try rw [hst]
  all_goals
    split
    · next h => subst h; first | rw [putDockState_dock_self] | rfl
    · next h => first | rw [putDockState_dock_ne _ _ h] | rfl

theorem returned_returned (x : Dock) : returned (returned x) = returned x := by
  obtain ⟨st, _⟩ := x
  cases st <;> rfl

/-- Giving docks back, as the statements spell it; each dock stands as the tick found it or is given back. -/
theorem returnDocks_effects (s : State) (l : List DockNo) (u v : State) (huv : u = { v with ports := u.ports })
    (hd : ∀ d, u.dock d = s.dock d ∨ u.dock d = returned (s.dock d)) :
    l.foldl State.returnDock u = { l.foldl s.returnEffect v with ports := u.ports }
      ∧ ∀ d, (l.foldl State.returnDock u).dock d = s.dock d ∨ (l.foldl State.returnDock u).dock d = returned (s.dock d) := by
  induction l generalizing u v with
  | nil => exact ⟨huv, hd⟩
  | cons d ds ih =>
    have step : u.returnDock d = { s.returnEffect v d with ports := u.ports } := by
      rw [returnDock_effect (hd d)]
      generalize u.ports = P at huv
      subst huv
      unfold State.returnEffect
      split <;> rfl
    have same : (u.returnDock d).ports = u.ports := by rw [step]
    rw [List.foldl_cons, List.foldl_cons, ← same]
    refine ih _ _ (by rw [same]; exact step) (fun e => ?_)
    rw [returnDock_dock]
    split
    · next q =>
      subst q
      rcases hd e with q | q <;> rw [q]
      · exact Or.inr rfl
      · exact Or.inr (returned_returned _)
    · exact hd e

theorem returnEffect_keeps (s : State) (l : List DockNo) (v : State) :
    (l.foldl s.returnEffect v).vans = v.vans ∧ (l.foldl s.returnEffect v).journal = v.journal :=
  ⟨foldl_keeps s.returnEffect State.vans (fun w d => by unfold State.returnEffect; split <;> rfl) ..,
    foldl_keeps s.returnEffect State.journal (fun w d => by unfold State.returnEffect; split <;> rfl) ..⟩

theorem mapClaims_map (f : Option Nat → Option Nat) (v : Vector (Option Nat) 8) : mapClaims (fun _ => f) v = v.map f := by
  ext k hk
  have := mapClaims_get (fun _ => f) v ⟨k, hk⟩
  simp_all

theorem returnItems_eq (j : JobRecord) :
    j.returnItems
      = { j with marked := j.marked.map (fun i => if i.outcome = .open then { i with outcome := .returned } else i) } := by
  unfold JobRecord.returnItems MarkedItem.isOpen
  congr 1
  refine List.map_congr_left (fun i _ => ?_)
  cases i.outcome <;> rfl

/-- What a tick does to one job, as the statements spell it: the ports take the notices. -/
theorem tickJob_effect (s u v : State) (slot : SlotNo) (huv : u = { v with ports := u.ports })
    (hj : v.job slot = s.job slot) (hd : ∀ d, v.dock d = s.dock d ∨ v.dock d = returned (s.dock d)) :
    u.tickJob slot = { s.windowEffect v slot with ports := (u.tickJob slot).ports }
      ∧ ∀ d, (u.tickJob slot).dock d = s.dock d ∨ (u.tickJob slot).dock d = returned (s.dock d) := by
  generalize u.ports = P at huv
  subst huv
  have hju : ({ v with ports := P } : State).job slot = s.job slot := hj
  unfold State.tickJob State.windowEffect
  rw [hju]
  cases s.job slot with
  | none => exact ⟨rfl, hd⟩
  | some j =>
    cases hw : j.window with
    | none => simp only [hw]; exact ⟨trivial, hd⟩
    | some w =>
      simp only [hw]
      split
      · obtain ⟨hf, hfd⟩ := returnDocks_effects s j.openDocks { v with ports := P } v rfl hd
        obtain ⟨vans, journal⟩ := returnEffect_keeps s j.openDocks v
        refine ⟨?_, fun d => ?_⟩
        · unfold State.expireJob State.cutJob
          dsimp only
          rw [hf, ← vans, ← journal, ← mapClaims_map, returnItems_eq]
          generalize j.openDocks.foldl s.returnEffect v = x
          cases j.batchFetched with
          | none => rfl
          | some fetched =>
            dsimp only
            rw [giveUp_givenUp]
            rfl
        · have docks : ∀ y : State, (y.expireJob slot j).rail.docks = (j.openDocks.foldl State.returnDock y).rail.docks := by
            intro y
            unfold State.expireJob State.cutJob
            dsimp only
            rw [endJob_rail]
            split
            · rw [giveUp_docks]
            · rfl
          have := hfd d
          unfold State.dock at this ⊢
          rwa [docks]
      · exact ⟨rfl, hd⟩

theorem tickJob_job_ne (u : State) {k m : SlotNo} (h : m ≠ k) : (u.tickJob k).job m = u.job m := by
  unfold State.tickJob
  split
  · rfl
  · next j _ =>
    split
    · rfl
    · split
      · have back : ∀ y : State, (j.openDocks.foldl State.returnDock y).vans = y.vans :=
          foldl_keeps State.returnDock State.vans (fun w d => by unfold State.returnDock; split <;> rfl) _
        unfold State.expireJob State.cutJob
        dsimp only
        rw [endJob_job_ne _ _ h]
        unfold State.job
        split
        · rw [giveUp_givenUp]
          dsimp only
          rw [back]
        · rw [back]
      · exact setJob_job_ne _ _ h

/-- What a tick does to the van jobs, as the statements spell it: outside the ports, the effects of R123 in job-slot order. -/
theorem tickJobs_effects (s : State) : s.tickJobs = { s.windowEffects with ports := s.tickJobs.ports } := by
  have key : ∀ (l : List SlotNo), l.Nodup → ∀ u v : State, u = { v with ports := u.ports } →
      (∀ k ∈ l, v.job k = s.job k) → (∀ d, v.dock d = s.dock d ∨ v.dock d = returned (s.dock d)) →
      l.foldl State.tickJob u
        = { l.foldl s.windowEffect v with ports := (l.foldl State.tickJob u).ports } := by
    intro l
    induction l with
    | nil => intro _ u v h _ _; exact h
    | cons k ks ih =>
      intro hl u v huv hj hd
      rw [List.nodup_cons] at hl
      rw [List.foldl_cons, List.foldl_cons]
      obtain ⟨step, docks⟩ := tickJob_effect s u v k huv (hj k (by simp)) hd
      refine ih hl.2 _ _ step (fun m hm => ?_) (fun d => ?_)
      · have ne : m ≠ k := fun q => hl.1 (q ▸ hm)
        rw [← hj m (by simp [hm]), show v.job m = u.job m by rw [huv]; rfl, ← tickJob_job_ne u ne, step]
        rfl
      · have := docks d
        rw [step] at this
        exact this
  exact key allSlots allSlots_nodup s s rfl (fun _ _ => rfl) (fun _ => Or.inl rfl)

end Sys2Proof.Machine.Laws
end

