-- ==== Sys2Proof/Tests/Slice0.lean ====
section
/-! SUPPORT. Tests: ill-formed commands, one step of every command on small states, and for every statement with
hypotheses a state and operands that meet them. -/

namespace Sys2Proof.Tests

open Sys2Proof.Machine

set_option maxRecDepth 20000

/-! ## Helpers -/

/-- The station after a command, or as it was where the command is refused. -/
def after (s : State) (i : Instr) : State :=
  match exec i s with
  | .next t => t
  | .fault _ => s
  | .refused _ => s

/-- The bytes of a request frame after its first, with tag 7. -/
def frame (body : List Byte) : List Byte := 7 :: natBytes 2 body.length ++ body

/-- The answer that a port's slot holds after a command. -/
def answer (s : State) (i : Instr) (p : Port) : Option Reply := (after s i).answer p

def plan : Plan :=
  { freeMinutes := 30, passFreeMinutes := 45, graceSeconds := 60, blockMinutes := 15, blockPrice := 150,
    overstayStart := 40, overstayPrice := 300, dayCap := 1200, creditFloor := 2000, startMinimum := 100 }

/-- A card entry with a balance of 5,000 cents. -/
def card (n : Nat) : CardEntry :=
  { number := n, state := .active, kind := .payg, tariff := 0, discount := 0, balance := 5000, charged := 0, day := 11,
    provisional := false, refCount := 0, inFlight := none, holdDock := none, lastUse := 0 }

/-- An open station of two segments of four EMPTY docks, its clock set and plan 0 defined. -/
def base : State :=
  { State.reset with
    rail :=
      { State.reset.rail with
        docks := mapDocks (fun d _ => if d.val < 8 then ⟨.empty, true⟩ else ⟨.absent, false⟩) State.reset.rail.docks }
    fares := { active := State.reset.fares.active.set 0 (some plan), staged := none }
    cards := [card 1]
    time :=
      { State.reset.time with
        clock := 1000000, clockValid := true, stationMode := .open
        config := { StationConfig.cold with configured := true, station := some 5, segments := [4, 4] } } }

def bike (n : Nat) : DockedBike := ⟨n, 900000, false⟩

def token (card ride : Nat) : Token :=
  { origin := 5, ride := ride, card := card, release := 997270, tariff := 0, provisional := false }

/-- A job with one OPEN item, that claims the item's segment. -/
def job (number : Nat) (kind : JobKind) (state : JobState) (d : DockNo) : JobRecord :=
  { number := number, origin := .service, kind := kind, start := if d.val < 4 then 0 else 4, direction := .up, walk := .wrap,
    faultHandling := none, requested := 1, marked := [⟨d, .open⟩], moved := [], expected := none, position := d,
    mismatch := none, claimed := if d.val < 4 then 1 else 2, batchFetched := (match kind with
      | .collect | .sweep => some true
      | .deliver | .audit => none),
    state := state, conditions := EndConditions.none, window := some 1 }

def topupRecord : Record := ⟨1, 999000, .topup 1 500 5000 .active⟩

/-- One dock of each state, with the jobs, commands and records that stand with them. -/
def full : State :=
  { base with
    rail :=
      { docks :=
          (((((((base.rail.docks.set 0 ⟨.docked (bike 11), true⟩).set 1 ⟨.held (bike 12) ⟨2, 1, .terminal⟩, true⟩).set 2
            ⟨.unlocking (bike 13) ⟨3, 4, false, 1, false, .uplink⟩, true⟩).set 3 ⟨.vanHeld (bike 14) 1, true⟩).set 4
            ⟨.vanReserved 2, true⟩).set 5 ⟨.outOfService (some (bike 15)) .sensor, true⟩).set 7
            ⟨.docked ⟨16, 900000, true⟩, true⟩)
        queue := [.unlock 2 (token 3 4)]
        opens := [⟨.job 1, [3]⟩]
        awaited := some 7
        cursor := none }
    rides := { base.rides with settled := [(5, 3)] }
    cards := [{ card 1 with refCount := 1 }, { card 2 with holdDock := some 1 }, { card 3 with inFlight := some 2 },
      { card 4 with provisional := true, balance := 0 }]
    faults := [⟨11, 2, Category.tyre.single, [⟨.service, none, .tyre, 5⟩], false, 5⟩]
    vans :=
      { base.vans with
        jobs := ((base.vans.jobs.set 0 (some (job 1 .collect .open 3))).set 1 (some (job 2 .deliver .filling 4))).set 2
          (some { job 3 .deliver .ended 6 with marked := [], window := none })
        nextJob := 4
        claims := (base.vans.claims.set 0 (some 1)).set 1 (some 2) }
    journal := { base.journal with records := [topupRecord], nextSeq := 2, reserved := 5 } }

/-- The station with a tick handed to every holder. -/
def ticked (s : State) : State := { s with time := { s.time with handed := ⟨true, true, true, true⟩ } }

/-- The part held by its RESET input. -/
def holding (s : State) : State := { s with time := { s.time with resetInput := true } }

def spoiledAt (p : Port) (s : State) : State := s.setPort p { s.port p with transfer := .spoiled }

def slotFull (p : Port) (s : State) : State :=
  s.setPort p { s.port p with slot := some ⟨9, 9, .accept .nothing⟩ }

def inReserve (s : State) : State := { s with journal := { s.journal with reserved := 1000, mode := .reserve } }

/-- A rail with no place for another command. -/
def crowded (s : State) : State := { s with rail := { s.rail with queue := List.replicate 24 (.relock [5]) } }

/-- A journal with no free slot. -/
def slotless (s : State) : State := { s with journal := { s.journal with reserved := 1023 } }

def tight (s : State) : State := { s with journal := { s.journal with mode := .tight } }

/-- A station whose segments no job claims. -/
def unclaimed (s : State) : State := { s with vans := { s.vans with claims := Vector.replicate 8 none } }

def unconfigured (s : State) : State :=
  { s with time := { s.time with config := { s.time.config with configured := false } } }

def clockless (s : State) : State := { s with time := { s.time with clockValid := false } }

def planless (s : State) : State := { s with fares := { s.fares with active := s.fares.active.set 0 none } }

def closed (s : State) : State := { s with time := { s.time with stationMode := .closed } }

/-- A request that its port hands to its owner. -/
theorem takesOf {α : Type} {s : State} {kind : ReqKind} {p : Port} {bytes : List Byte}
    {read : List Byte → Except RefusalReason α} {req : α}
    (h : (!s.held && decide ((s.port p).transfer ≠ .spoiled) && decide ((s.port p).slot = none)) = true)
    (h' : intake kind p bytes read s.time.config.configured = .ok req) : s.takes kind p bytes read req := by
  simp only [Bool.and_eq_true, Bool.not_eq_true', decide_eq_true_eq] at h
  exact ⟨⟨h.1.1, h.1.2, h.2⟩, h'⟩

theorem readyOf {s : State} {p : Port}
    (h : (!s.held && decide ((s.port p).transfer ≠ .spoiled) && decide ((s.port p).slot = none)) = true) : s.ready p := by
  simp only [Bool.and_eq_true, Bool.not_eq_true', decide_eq_true_eq] at h
  exact ⟨h.1.1, h.1.2, h.2⟩

/-! ## Ill-formed commands -/

theorem test_ill_formed_known_kind : (Instr.unknownRequest .rail 1 []).wf = false := by decide

theorem test_ill_formed_last_kind : (Instr.unknownRequest .rail 34 []).wf = false := by decide

theorem test_ill_formed_answer_read : (Instr.unknownRequest .rail 0xA5 []).wf = false := by decide

theorem test_ill_formed_takers : (Instr.tick [.docks, .docks]).wf = false := by decide

theorem test_ill_formed_under_way : (Instr.resetHold .resetInput [.rail, .rail]).wf = false := by decide

theorem test_well_formed_boundaries :
    (Instr.unknownRequest .rail 0 []).wf = true ∧ (Instr.unknownRequest .rail 35 []).wf = true
      ∧ (Instr.unknownRequest .rail 0xEE []).wf = true := by decide

theorem test_refused_foreign_first_byte : exec (.unknownRequest .rail 34 []) base = .refused .notThisRow := rfl

theorem test_no_word_spells_a_command : decodeTableWord 16 1 = none := by decide

/-! ## One step of every command -/

theorem test_release :
    answer full (.release .terminal (frame (natBytes 5 1 ++ [1, 1]))) .terminal = some (.accept (.released 0 1 none)) := by
  decide

theorem test_release_busy_card :
    answer full (.release .uplink (frame (natBytes 5 3 ++ [0]))) .uplink = some (.refuse .cardBusy none) := by decide

theorem test_hold :
    ((after full (.hold .uplink (frame (natBytes 5 1 ++ [0])))).dock 0).state
      = .held (bike 11) ⟨1, 600, .uplink⟩ := by decide

theorem test_hold_cancel :
    ((after full (.holdCancel .terminal (frame (natBytes 5 2)))).dock 1).state = .docked (bike 12) := by decide

theorem test_topup :
    answer full (.topup .terminal (frame (natBytes 5 1 ++ natBytes 4 100))) .terminal
      = some (.accept (.toppedUp 5100 .active)) := by decide

theorem test_topup_below_range :
    answer full (.topup .terminal (frame (natBytes 5 1 ++ natBytes 4 99))) .terminal
      = some (.refuse .outOfRange none) := by decide

theorem test_card_status :
    answer full (.cardStatus .service (frame [0])) .service = some (.accept (.cardTotals ⟨4, 1, 3, 4, 0, 0, 0⟩)) := by
  decide

theorem test_report_fault :
    ((after full (.reportFault .service (frame ([0, 1, 1] ++ natBytes 3 11 ++ [0])))).fault 11).map
      (fun e => (e.score, e.quarantined)) = some (6, true) := by decide

theorem test_clear_fault :
    (after full (.clearFault .service (frame (natBytes 3 11)))).faults = [] := by decide

theorem test_dock_restore :
    (after full (.dockRestore .uplink (frame [6]))).dock 5 = ⟨.docked (bike 15), false⟩ := by decide

theorem test_fault_status :
    answer full (.faultStatus .service (frame [0, 0, 0, 0])) .service
      = some (.accept (.faultList 1 0 4 [⟨11, 2, false⟩] false)) := by decide

theorem test_fetch_command :
    (after full (.fetchCommand .rail (frame []))).rail.opens = [⟨.job 1, [3]⟩, ⟨.release 2, [2]⟩] := by decide

theorem test_inserted_plain :
    ((after full (.inserted .rail (frame ([7] ++ natBytes 3 40 ++ [0])))).dock 6).state
      = .docked ⟨40, 1000000, false⟩ := by decide

theorem test_removed_completes :
    (after full (.removed .rail (frame ([3] ++ natBytes 3 13)))).journal.records
      = [topupRecord, ⟨2, 1000000, .release 3 2 13 4 .uplink false⟩] := by decide

theorem test_removed_forced :
    ((after full (.removed .rail (frame ([1] ++ natBytes 3 11)))).fault 11).map (fun e => e.score) = some 5 := by decide

theorem test_lock_jam :
    ((after full (.lockJam .rail (frame [7]))).dock 6).state = .outOfService none .lockJam := by decide

theorem test_sensor_fault :
    ((after full (.sensorFault .rail (frame [1, 3]))).dock 0).state = .outOfService (some (bike 11)) .tagReader := by decide

theorem test_census :
    (after full (.census .rail (frame ([0, 1, 1, 5] ++ natBytes 3 77)))).dock 0
      = ⟨.docked ⟨77, 1000000, false⟩, true⟩ := by decide

theorem test_token_report_without_token :
    ((after full (.tokenReport .rail (frame ([8] ++ natBytes 3 16 ++ [0])))).fault 16).map (fun e => e.score) = some 2 := by
  decide

theorem test_start_job :
    answer base (.startJob .service (frame [3, 1, 1, 1, 0, 1, 2, 0])) .service
      = some (.accept (.jobStarted 1 .filling [0, 1] 1 EndConditions.none none)) := by decide

theorem test_start_audit :
    answer base (.startJob .uplink (frame ([4, 8, 2, 2, 0, 0, 1, 2] ++ natBytes 3 0 ++ natBytes 3 9))) .uplink
      = some (.accept (.jobStarted 1 .ended [] 6 { EndConditions.none with mismatch := true } (some 6))) := by decide

theorem test_job_status :
    answer full (.jobStatus .service (frame [1, 9])) .service = some (.refuse .jobUnknown none) := by decide

theorem test_retire_job : (after full (.retireJob .service (frame [3]))).job 2 = none := by decide

theorem test_abort_job : ((after full (.abortJob .service (frame [1]))).dock 3).state = .docked (bike 14) := by decide

theorem test_configure_first :
    ((after State.reset (.configure .uplink (frame [1, 0, 5, 1, 1, 8, 0, 0, 0, 0, 0, 0, 0]))).dock 7)
      = ⟨.empty, false⟩ := by decide

theorem test_configure_busy :
    answer base (.configure .uplink (frame [0, 1, 1, 8, 0, 0, 0, 0, 0, 0, 0])) .uplink
      = some (.refuse .stationBusy none) := by decide

theorem test_clock_set :
    (after State.reset (.clockSet .uplink (frame (natBytes 4 86400)))).journal.records
      = [⟨1, 86400, .clockSet none 86400⟩] := by decide

theorem test_set_mode : (after base (.setMode .uplink (frame [2]))).time.stationMode = .closed := by decide

theorem test_card_load :
    ((after full (.cardLoad .uplink (frame (natBytes 5 1 ++ intBytes 200 ++ natBytes 4 0 ++ intBytes (-1)
      ++ [1, 1, 0, 0, 10] ++ natBytes 4 0)))).card 1).map (fun c => (c.balance, c.discount, c.refCount))
        = some (700, 10, 1) := by decide

theorem test_card_drop_pinned :
    answer full (.cardDrop .uplink (frame (natBytes 5 1))) .uplink
      = some (.refuse .cardBusy (some ⟨true, false, false⟩)) := by decide

theorem test_tariff_stage_empty_list :
    answer full (.tariffStage .uplink (frame (natBytes 4 0 ++ [0]))) .uplink = some (.refuse .outOfRange none) := by decide

theorem test_journal_read :
    answer full (.journalRead .uplink (frame [0, 16])) .uplink
      = some (.accept (.journal [topupRecord] 1 0 1 false)) := by decide

theorem test_journal_release :
    ((after full (.journalRelease .uplink (frame (natBytes 4 1)))).card 1).map (fun c => c.refCount) = some 0 := by decide

theorem test_factory_clear :
    (after full (.factoryClear .uplink (frame []))).time.clock = 1000000
      ∧ (after full (.factoryClear .uplink (frame []))).cards = [] := by decide

theorem test_dock_status :
    answer full (.dockStatus .rail (frame [1, 64])) .rail = some (.accept (.dock ⟨.absent, false⟩)) := by decide

theorem test_station_status :
    ((after full (.stationStatus .terminal (frame []))).port .terminal).slot.map (fun f => f.bytes.length) = some 82 := by
  decide

theorem test_read_notices :
    ((after base (.readNotices .terminal (frame [1, 16]))).port .terminal).attention = false := by decide

theorem test_set_notice_enables :
    ((after base (.setNoticeEnables .rail (frame [0, 1, 16]))).port .rail).attention = false := by decide

theorem test_unknown_request :
    answer base (.unknownRequest .rail 35 (frame [])) .rail = some (.refuse .unknownRequest none) := by decide

theorem test_answer_read_idle :
    ((after base (.answerRead .rail 7)).port .rail).dataOut = [0xEE, 0, 3, 0, 0, 0, 0xFF] := by decide

theorem test_tick_to_holders :
    (after base (.tick [.fares])).time.clock = 1000001
      ∧ (after base (.tick [.fares])).time.handed = ⟨true, true, false, true⟩ := by decide

theorem test_hold_expiry : ((after (ticked full) (.holdExpiry 1)).dock 1).state = .docked (bike 12) := by decide

theorem test_unlock_window_expiry :
    ((after (ticked full) (.unlockWindowExpiry 2)).rides.uplinkOutcomes)
      = [⟨.releaseLapsed 4 .notFetched, 3, 2, 1000000⟩] := by decide

theorem test_van_window_expiry :
    ((after (ticked full) (.vanWindowExpiry 0)).job 0).map (fun j => (j.state, j.conditions.late))
      = some (.ended, true) := by decide

theorem test_stale_timer_expiry :
    (after { ticked base with time := { (ticked base).time with staleTimer := 1, link := .online } }
      .staleTimerExpiry).time.link = .offline := by decide

theorem test_tariff_switch :
    (after { ticked base with fares := { base.fares with staged := some ⟨1000000, [⟨3, some plan⟩]⟩ } }
      .tariffSwitch).fares.active[(3 : Fin 8)] = some plan := by decide

/-- A tick taken while the clock is invalid makes no comparison, whatever a CLOCK_SET then sets (R51). -/
theorem test_tariff_switch_waits_for_the_next_tick :
    (let s : State := clockless { base with fares := { base.fares with staged := some ⟨1000000, [⟨3, some plan⟩]⟩ } }
     let t := after (after s (.tick [])) (.clockSet .uplink (frame (natBytes 4 2000000)))
     decide ((after t .tariffSwitch) = t) && decide ((after (after t (.tick [])) .tariffSwitch).fares.staged = none))
      = true := by
  decide

/-- A set staged while the fare unit's tick is at hand is compared at that tick (log 35). -/
theorem test_tariff_stage_before_the_switch_tick :
    (after (after (ticked base) (.tariffStage .uplink (frame (natBytes 4 5 ++ [1, 7, 0])))) .tariffSwitch).fares.staged
      = none := by decide

/-- The first tick after a warm reset sweeps (R45). -/
theorem test_tick_sweeps :
    (after (after (holding full) .warmReset) (.tick [])).rail.queue = [.readToken 7] := by decide

/-- The event of a request that only reads sweeps (R45; log 5). -/
theorem test_status_request_sweeps :
    (after { full with rail := { full.rail with awaited := none } } (.dockStatus .rail (frame [1, 1]))).rail.queue
      = [.unlock 2 (token 3 4), .readToken 7] := by decide

/-- A refused request does not (R176; log 5). -/
theorem test_refused_request_does_not_sweep :
    (after { full with rail := { full.rail with awaited := none } } (.jobStatus .service (frame [1, 9]))).rail
      = { full.rail with awaited := none } := by decide

/-- The answer of a SET_NOTICE_ENABLES does not show the COMMAND_WAITING of the sweep in its own event (log 36). -/
theorem test_set_notice_enables_answers_before_the_sweep :
    (let s : State := { full with rail := { full.rail with awaited := none } }
     let t := after s (.setNoticeEnables .rail (frame [0, 0]))
     t.answer .rail = some (.accept (.enables (s.port .rail).enableSet (s.port .rail).pendingSet))
       ∧ (s.port .rail).pendingSet.has .commandWaiting = false ∧ (t.port .rail).pendingSet.has .commandWaiting = true) := by
  decide

theorem test_resettlement_sweep :
    (after { full with rail := { full.rail with awaited := none } } .resettlementSweep).rail.queue
      = [.unlock 2 (token 3 4), .readToken 7] := by decide

theorem test_reset_hold :
    ((after base (.resetHold .mainSupply [.rail])).port .rail).transfer = .spoiled := by decide

theorem test_retention_loss : (after (holding base) .retentionLoss).time.retention = false := by decide

theorem test_warm_reset :
    (after (holding full) .warmReset).journal.records.length = 3
      ∧ (after (holding full) .warmReset).dock 4 = ⟨.empty, false⟩ := by decide

theorem test_cold_reset :
    (after (after (holding full) .retentionLoss) .coldReset).rail = State.reset.rail := by decide

theorem test_select_during_hold :
    ((after (holding base) (.selectDuringHold .uplink)).port .uplink).transfer = .spoiled := by decide

theorem test_spoiled_transfer_end :
    ((after (spoiledAt .uplink base) (.spoiledTransferEnd .uplink)).port .uplink).transfer = .quiet := by decide

/-- The worked case of R64: a quote of 2,730 seconds before the ride. -/
theorem test_quote_worked_case :
    (let f := fareFigures plan { kind := .payg, discount := 20, charged := 1100, day := 11 } 11 11 2730
     [f.baseBlocks, f.overstayBlocks, f.gross, f.discounted, f.capped, f.surchargeCharged, f.baseCharged, f.charge])
      = [1, 1, 150, 120, 100, 300, 100, 400] := by decide

/-! ## What the statements' hypotheses are met by -/

theorem witness_StepRunsFrontCommand : ({ base with pending := [.tick []] } : State).pending = [.tick []] := rfl

theorem witness_EveryCommandAnswersNext :
    (Instr.warmReset).wf = true ∧ (Instr.unknownRequest .uplink 34 []).wf = false ∧ base.pending = [] := by decide

theorem witness_DeafPortTakesNothing :
    requestFrame? (.hold .terminal []) = some (.terminal, 2, []) ∧ (Instr.hold .terminal []).wf = true
      ∧ (holding base).held = true ∧ ((spoiledAt .terminal base).port .terminal).transfer = .spoiled
      ∧ (spoiledAt .terminal base).held = false := by decide

theorem witness_OverrunDiscardsRequest :
    requestFrame? (.unknownRequest .rail 0 []) = some (.rail, 0, []) ∧ (Instr.unknownRequest .rail 0 []).wf = true
      ∧ (slotFull .rail base).held = false ∧ ((slotFull .rail base).port .rail).transfer ≠ .spoiled
      ∧ ((slotFull .rail base).port .rail).slot = some ⟨9, 9, .accept .nothing⟩ := by decide

/-- Frames of 3 and of 2 bytes after the first, of 511 and 512, and a length that disagrees with the bytes. -/
theorem witness_ShapeThenKindAreJudged :
    base.ready .rail ∧ ([1, 2] : List Byte).length < 3 ∧ 511 < (List.replicate 512 (0 : Byte)).length
      ∧ beNat ((([7, 0, 1] : List Byte).drop 1).take 2) + 3 ≠ 3 ∧ beNat (((frame []).drop 1).take 2) + 3 = (frame []).length
      ∧ (frame (List.replicate 508 0)).length = 511
      ∧ beNat (((frame (List.replicate 508 0)).drop 1).take 2) + 3 = 511 ∧ isRequestCode 0 = false
      ∧ isRequestCode 35 = false ∧ isRequestCode 1 = true ∧ isRequestCode 34 = true :=
  ⟨readyOf (by decide), by decide, by decide, by decide, by decide, by decide, by decide, by decide, by decide, by decide,
    by decide⟩

theorem witness_AuthorityThenConfiguration :
    base.ready .rail ∧ ReqKind.topup.allowedAt .rail = false ∧ State.reset.ready .terminal
      ∧ ReqKind.hold.allowedAt .terminal = true ∧ State.reset.time.config.configured = false
      ∧ ReqKind.hold.takenUnconfigured = false
      ∧ requestFrame? (.hold .terminal (frame [])) = some (.terminal, ReqKind.hold.code, frame []) :=
  ⟨readyOf (by decide), by decide, readyOf (by decide), by decide, by decide, by decide, by decide⟩

theorem witness_RefusalChangesNoRecord :
    base.ready .terminal
      ∧ exec (.holdCancel .terminal (frame (natBytes 5 1))) base
          = .next (after base (.holdCancel .terminal (frame (natBytes 5 1))))
      ∧ answer base (.holdCancel .terminal (frame (natBytes 5 1))) .terminal = some (.refuse .notFound none) :=
  ⟨readyOf (by decide), rfl, by decide⟩

theorem witness_AnswerIsReadWholeOrKept :
    base.held = false ∧ (base.port .rail).transfer ≠ .spoiled ∧ (base.port .rail).slot = none
      ∧ ((slotFull .rail base).port .rail).slot = some ⟨9, 9, .accept .nothing⟩
      ∧ (⟨9, 9, .accept .nothing⟩ : AnswerFrame).bytes.length = 6 := by decide

theorem witness_NoticeRequests :
    base.takes .readNotices .terminal (frame [1, 16]) readClear [.resetSeen]
      ∧ base.takes .setNoticeEnables .rail (frame [1, 1, 1, 16]) readEnables ⟨[.rideStarted], [.resetSeen]⟩ :=
  ⟨takesOf (by decide) rfl, takesOf (by decide) rfl⟩

/-- The checks of R27 before the dock, as the statement lists them. -/
def releaseChecks (s : State) (c : CardEntry) : Option RefusalReason :=
  let onPass := match c.kind with
    | .pass expiry => decide (s.today ≤ expiry)
    | .payg => false
  let affords := match s.fares.active[c.tariff], s.fares.active[(0 : Fin 8)] with
    | some plan, _ => decide ((plan.startMinimum : Int) ≤ c.balance)
    | none, some plan => decide ((plan.startMinimum : Int) ≤ c.balance)
    | none, none => false
  firstFailing
    [(!s.time.clockValid, .clockUnset), (s.fares.active[(0 : Fin 8)].isNone, .noTariff),
     (decide (s.time.stationMode = .closed), .stationClosed), (decide (c.state ≠ .active), .cardBlocked),
     (c.inFlight.isSome, .cardBusy), (!(onPass || c.provisional || affords), .cardBlocked),
     (decide (s.journal.mode = .reserve), .journalReserve),
     (decide (s.journal.mode = .tight) && !onPass, .journalTight)]

theorem witness_ReleaseJudgedInOrder :
    base.takes .release .terminal (frame (natBytes 5 1 ++ [0])) readRide ⟨1, none⟩ ∧ base.card 1 = some (card 1)
      ∧ releaseChecks (clockless base) (card 1) = some .clockUnset ∧ releaseChecks (planless base) (card 1) = some .noTariff
      ∧ releaseChecks (closed base) (card 1) = some .stationClosed
      ∧ releaseChecks base { card 1 with state := .debt } = some .cardBlocked
      ∧ releaseChecks base { card 1 with inFlight := some 3 } = some .cardBusy
      ∧ releaseChecks base { card 1 with balance := 99 } = some .cardBlocked
      ∧ releaseChecks base { card 1 with balance := 100 } = none
      ∧ releaseChecks (inReserve base) (card 1) = some .journalReserve
      ∧ releaseChecks (tight base) (card 1) = some .journalTight
      ∧ releaseChecks (tight base) { card 1 with kind := .pass 11 } = none
      ∧ base.releaseDock (card 1) none = .error .noBike ∧ full.releaseDock (card 1) (some 1) = .error .dockState
      ∧ releaseChecks (crowded full) (card 1) = none ∧ (crowded full).releaseDock (card 1) (some 0) = .ok 0
      ∧ 24 ≤ (crowded full).rail.queue.length + (crowded full).rail.opens.length :=
  ⟨takesOf (by decide) rfl, by decide, by decide, by decide, by decide, by decide, by decide, by decide, by decide,
    by decide, by decide, by decide, rfl, rfl, by decide, rfl, by decide⟩

/-- A release of a named dock, and one that consumes the card's hold. -/
theorem witness_ReleaseGranted :
    full.takes .release .terminal (frame (natBytes 5 1 ++ [1, 1])) readRide ⟨1, some 0⟩
      ∧ full.takes .release .uplink (frame (natBytes 5 2 ++ [0])) readRide ⟨2, none⟩
      ∧ full.time.clockValid = true ∧ full.fares.plan0.isSome = true ∧ full.time.stationMode = .open
      ∧ full.card 1 = some { card 1 with refCount := 1 } ∧ full.entitled { card 1 with refCount := 1 } = true
      ∧ full.journalBars { card 1 with refCount := 1 } = none
      ∧ (full.releaseDock { card 1 with refCount := 1 } (some 0)).toOption = some 0 ∧ full.rail.hasRoom = true
      ∧ (full.dock 0).state.bike? = some (bike 11) ∧ full.card 2 = some { card 2 with holdDock := some 1 }
      ∧ (full.releaseDock { card 2 with holdDock := some 1 } none).toOption = some 1
      ∧ (full.dock 1).state.bike? = some (bike 12) :=
  ⟨takesOf (by decide) rfl, takesOf (by decide) rfl, by decide⟩

def offline (s : State) : State :=
  { s with time := { s.time with config := { s.time.config with provisionalReleases := true } } }

theorem witness_ProvisionalRelease :
    full.takes .release .uplink (frame (natBytes 5 9 ++ [0])) readRide ⟨9, none⟩
      ∧ (offline full).takes .release .terminal (frame (natBytes 5 9 ++ [0])) readRide ⟨9, none⟩
      ∧ full.time.clockValid = true ∧ full.fares.plan0.isSome = true ∧ full.time.stationMode = .open ∧ full.card 9 = none
      ∧ Port.uplink ≠ .terminal ∧ (offline full).time.link = .offline
      ∧ (offline full).time.config.provisionalReleases = true ∧ (offline full).provisionalCount < 32
      ∧ (offline full).journal.mode = .normal ∧ ((offline full).findDock none).toOption = some 0
      ∧ (offline full).rail.hasRoom = true ∧ ((offline full).cards.length < 1024 ∧ (none : Option Nat) = none)
      ∧ (full.dock 0).state = .docked (bike 11) ∧ (tight (offline full)).journal.mode = .tight
      ∧ (inReserve (offline full)).journal.mode = .reserve
      ∧ 24 ≤ (crowded (offline full)).rail.queue.length + (crowded (offline full)).rail.opens.length :=
  ⟨takesOf (by decide) rfl, takesOf (by decide) rfl, by decide⟩

/-- A station that is offline and whose card table is full of pinned entries. -/
def packed : State := { offline full with cards := List.replicate 1024 { card 1 with refCount := 1 } }

/-- The same, but for three entries that are not pinned: one used later, and two of one last-use time. -/
def packedButThree : State :=
  { offline full with
    cards := List.replicate 1021 { card 1 with refCount := 1 } ++ [{ card 2 with lastUse := 8 }, card 3, card 4] }

theorem packed_cardsPinned : packed.cardsPinned := by
  refine ⟨by simp [packed], fun c hc => ?_⟩
  rw [List.eq_of_mem_replicate hc]
  exact fun h => absurd h.1 (by decide)

/-- Of the earliest last use the lower number goes (R70). -/
theorem packedButThree_evicts : packedButThree.evicts (some 3) := by
  have mem : ∀ x ∈ packedButThree.cards, x = { card 1 with refCount := 1 } ∨ x = { card 2 with lastUse := 8 }
      ∨ x = card 3 ∨ x = card 4 := by
    intro x hx
    rcases List.mem_append.1 hx with h | h
    · exact Or.inl (List.eq_of_mem_replicate h)
    · simpa using Or.inr (a := x = { card 1 with refCount := 1 }) h
  refine Or.inr ⟨by simp [packedButThree], card 3, List.mem_append.2 (Or.inr (by simp)), ⟨rfl, rfl, rfl⟩, rfl,
    fun x hx hl ne => ?_⟩
  rcases mem x hx with rfl | rfl | rfl | rfl
  · exact absurd hl.1 (by decide)
  · exact Or.inl (by decide)
  · exact absurd rfl ne
  · exact Or.inr ⟨rfl, by decide⟩

/-- The provisional path with a dock that is no choice, and with a dock but no place in the card table. -/
theorem witness_ProvisionalRelease_refused :
    (offline full).findDock (some 1) = .error .dockState
      ∧ packed.takes .release .terminal (frame (natBytes 5 9 ++ [0])) readRide ⟨9, none⟩ ∧ packed.findDock none = .ok 0
      ∧ packed.card 9 = none ∧ packed.provisionalCount < 32 ∧ packed.cardsPinned := by
  refine ⟨rfl, takesOf (by decide) rfl, rfl, ?_, ?_, packed_cardsPinned⟩
  · simp [State.card, packed, findCard, card]
  · simp [State.provisionalCount, packed, card]

/-- The provisional path where a full card table has entries that are not pinned. -/
theorem witness_ProvisionalRelease_evicts :
    packedButThree.takes .release .terminal (frame (natBytes 5 9 ++ [0])) readRide ⟨9, none⟩
      ∧ packedButThree.findDock none = .ok 0 ∧ packedButThree.card 9 = none ∧ packedButThree.provisionalCount < 32
      ∧ packedButThree.rail.hasRoom = true ∧ packedButThree.evicts (some 3) := by
  refine ⟨takesOf (by decide) rfl, rfl, ?_, ?_, by decide, packedButThree_evicts⟩
  · simp [State.card, packedButThree, findCard, card]
  · simp [State.provisionalCount, packedButThree, card]

theorem full_heldSound : full.heldSound := by
  have h : ∀ d : DockNo, (full.dock d).state.isHeld = true → d = 1 := by decide
  intro d b x e
  obtain rfl := h d (by rw [e]; rfl)
  have e' : (full.dock 1).state = .held (bike 12) ⟨2, 1, .terminal⟩ := by decide
  obtain ⟨rfl, rfl⟩ := DockState.held.inj (e.symm.trans e')
  refine ⟨by decide, rfl, fun f hf => ?_⟩
  rw [show full.fault (bike 12).bike = none by decide] at hf
  exact nomatch hf

theorem witness_FoundDockIsAvailable :
    full.available 0 = true ∧ (∀ b, (full.dock 1).state ≠ .docked b) ∧ (full.dock 7).state = .docked ⟨16, 900000, true⟩
      ∧ (∀ d, base.available d = false) ∧ (full.dock 1).state.isHeld = true
      ∧ answer full (.release .terminal (frame (natBytes 5 1 ++ [1, 1]))) .terminal
          = some (.accept (.released 0 1 none))
      ∧ answer full (.release .uplink (frame (natBytes 5 2 ++ [0]))) .uplink = some (.accept (.released 1 1 none))
      ∧ answer full (.hold .uplink (frame (natBytes 5 1 ++ [0]))) .uplink = some (.accept (.held 0 600))
      ∧ full.heldSound :=
  ⟨by decide, (fun _ h => nomatch h), by decide, by decide, by decide, by decide, by decide, by decide, full_heldSound⟩

theorem witness_HoldJudgedAndGranted :
    full.takes .hold .uplink (frame (natBytes 5 1 ++ [0])) readRide ⟨1, none⟩
      ∧ full.takes .hold .uplink (frame (natBytes 5 1 ++ [1, 2])) readRide ⟨1, some 1⟩
      ∧ full.time.clockValid = true ∧ full.fares.plan0.isSome = true ∧ full.time.stationMode = .open
      ∧ full.card 1 = some { card 1 with refCount := 1 } ∧ full.entitled { card 1 with refCount := 1 } = true
      ∧ full.journal.mode ≠ .reserve ∧ full.holdCount < 8 ∧ (full.findDock none).toOption = some 0
      ∧ (full.dock 0).state = .docked (bike 11) ∧ (clockless full).time.clockValid = false
      ∧ (full.findDock (some 1)).toOption = none :=
  ⟨takesOf (by decide) rfl, takesOf (by decide) rfl, by decide⟩

theorem witness_HoldCancelEndsHold :
    full.takes .holdCancel .terminal (frame (natBytes 5 9)) readCard 9
      ∧ full.takes .holdCancel .terminal (frame (natBytes 5 2)) readCard 2
      ∧ full.takes .holdCancel .uplink (frame (natBytes 5 2)) readCard 2 ∧ full.card 9 = none
      ∧ (full.card 1).map (fun c => c.holdDock) = some none ∧ full.card 2 = some { card 2 with holdDock := some 1 }
      ∧ (full.dock 1).state = .held (bike 12) ⟨2, 1, .terminal⟩ ∧ RiderPort.terminal.port = .terminal
      ∧ RiderPort.terminal.port ≠ .uplink :=
  ⟨takesOf (by decide) rfl, takesOf (by decide) rfl, takesOf (by decide) rfl, by decide⟩

/-- The station with the hold or the release counting on at its other dock. -/
def oneDue (d : DockNo) : State := (ticked full).putDockState d .empty

def fetchedRelease : State :=
  { ((oneDue 1).putDockState 2 (.unlocking (bike 13) ⟨3, 4, false, 1, true, .uplink⟩)) with
    rail :=
      { ((oneDue 1).putDockState 2 (.unlocking (bike 13) ⟨3, 4, false, 1, true, .uplink⟩)).rail with
        queue := [], opens := [⟨.release 2, [2]⟩] } }

/-- A release of a bike whose token the part has begun to read. -/
def tokenRelease : State :=
  { full.putDockState 2 (.unlocking ⟨13, 900000, true⟩ ⟨3, 4, false, 1, false, .uplink⟩) with
    rail := { (full.putDockState 2 (.unlocking ⟨13, 900000, true⟩ ⟨3, 4, false, 1, false, .uplink⟩)).rail with
              awaited := some 2 } }

/-- A release that is unfetched, one that is fetched, and one of a bike that has its token held and a read awaited. -/
theorem witness_RemovalCompletesRelease :
    full.takes .removed .rail (frame ([3] ++ natBytes 3 13)) readRemoved ⟨2, 13⟩
      ∧ (full.dock 2).state = .unlocking (bike 13) ⟨3, 4, false, 1, false, .uplink⟩
      ∧ fetchedRelease.takes .removed .rail (frame ([3] ++ natBytes 3 13)) readRemoved ⟨2, 13⟩
      ∧ (fetchedRelease.dock 2).state = .unlocking (bike 13) ⟨3, 4, false, 1, true, .uplink⟩
      ∧ fetchedRelease.rail.opens = [] ++ ⟨.release 2, [2]⟩ :: []
      ∧ tokenRelease.takes .removed .rail (frame ([3] ++ natBytes 3 13)) readRemoved ⟨2, 13⟩
      ∧ (tokenRelease.dock 2).state = .unlocking ⟨13, 900000, true⟩ ⟨3, 4, false, 1, false, .uplink⟩
      ∧ tokenRelease.rail.awaited = some 2 :=
  ⟨takesOf (by decide) rfl, by decide, takesOf (by decide) rfl, by decide, rfl, takesOf (by decide) rfl, by decide, rfl⟩

/-- A removal takes an unfetched UNLOCK off the queue and closes a fetched one's record; a held token's read ends with it. -/
theorem test_removed_leaves_no_command :
    (after full (.removed .rail (frame ([3] ++ natBytes 3 13)))).rail.queue = []
      ∧ (after fetchedRelease (.removed .rail (frame ([3] ++ natBytes 3 13)))).rail.opens = []
      ∧ (after tokenRelease (.removed .rail (frame ([3] ++ natBytes 3 13)))).rail.awaited = none := by decide

/-- A hold and a release that are due in the one tick. -/
theorem witness_DockCountdownsExpire_several :
    (ticked full).held = false ∧ (ticked full).time.handed.docks = true ∧ (ticked full).holdDue 1 = true
      ∧ (ticked full).windowDue 2 = true ∧ ((ticked full).dock 1).state = .held (bike 12) ⟨2, 1, .terminal⟩
      ∧ ((ticked full).dock 2).state = .unlocking (bike 13) ⟨3, 4, false, 1, false, .uplink⟩ := by decide

/-- Both expire in it, whichever of them is commanded. -/
theorem test_countdowns_of_one_tick :
    (after (ticked full) (.unlockWindowExpiry 2)).rides.terminalOutcomes = [⟨.holdExpired, 2, 1, 1000000⟩]
      ∧ (after (ticked full) (.holdExpiry 1)).rides.uplinkOutcomes = [⟨.releaseLapsed 4 .notFetched, 3, 2, 1000000⟩] := by
  decide

theorem witness_DockCountdownsExpire :
    full.holdDue 0 = false ∧ full.windowDue 0 = false ∧ (oneDue 2).held = false ∧ (oneDue 2).time.handed.docks = true
      ∧ ((oneDue 2).dock 1).state = .held (bike 12) ⟨2, 1, .terminal⟩
      ∧ (∀ e, e ≠ 1 → (oneDue 2).holdDue e = false ∧ (oneDue 2).windowDue e = false)
      ∧ ((oneDue 1).dock 2).state = .unlocking (bike 13) ⟨3, 4, false, 1, false, .uplink⟩
      ∧ (∀ e, e ≠ 2 → (oneDue 1).holdDue e = false ∧ (oneDue 1).windowDue e = false)
      ∧ (fetchedRelease.dock 2).state = .unlocking (bike 13) ⟨3, 4, false, 1, true, .uplink⟩
      ∧ fetchedRelease.held = false ∧ fetchedRelease.time.handed.docks = true
      ∧ (∀ e, e ≠ 2 → fetchedRelease.holdDue e = false ∧ fetchedRelease.windowDue e = false)
      ∧ fetchedRelease.rail.opens.find? (fun o => o.owner == .release 2) = some ⟨.release 2, [2]⟩ := by decide

theorem witness_FareDurationAndBlocks :
    1 ≤ plan.blockMinutes ∧ 1860 ≤ plan.graceSeconds + 60 * plan.freeMinutes
      ∧ plan.graceSeconds + 60 * plan.freeMinutes < 1861 ∧ 2400 ≤ 60 * plan.overstayStart
      ∧ 60 * plan.overstayStart < 2401 ∧ plan.overstayStart ≠ 0 := by decide

theorem witness_FarePricing : plan.dayCap ≠ 0 ∧ ({ plan with dayCap := 0 } : Plan).dayCap = 0 := by decide

theorem witness_QuoteComputesAndChangesNothing :
    base.takes .quote .terminal (frame (natBytes 5 1 ++ natBytes 4 259200)) readQuote ⟨1, 259200⟩
      ∧ firstFailing [(!(clockless base).time.clockValid, .clockUnset), (false, .noTariff)] = some .clockUnset
      ∧ (planless base).fares.plan0.isNone = true ∧ (base.card 2).isNone = true
      ∧ base.time.clockValid = true ∧ base.card 1 = some (card 1) ∧ base.fares.active[(0 : Fin 8)] = some plan
      ∧ base.fares.active[(6 : Fin 8)] = none :=
  ⟨takesOf (by decide) rfl, by decide, by decide, by decide, by decide, by decide, by decide, by decide⟩

def planBytes : List Byte := [30, 45, 60, 15] ++ natBytes 4 150 ++ natBytes 2 40 ++ natBytes 4 300 ++ natBytes 4 1200
  ++ natBytes 4 2000 ++ natBytes 4 100

theorem witness_StagedSetReplacedAndSwitched :
    base.takes .tariffStage .uplink (frame (natBytes 4 5 ++ [0])) readStage ⟨5, []⟩
      ∧ base.takes .tariffStage .uplink (frame (natBytes 4 5 ++ [2, 3, 0, 3, 0])) readStage ⟨5, [⟨3, none⟩, ⟨3, none⟩]⟩
      ∧ base.takes .tariffStage .uplink (frame (natBytes 4 5 ++ [1, 0, 0])) readStage ⟨5, [⟨0, none⟩]⟩
      ∧ base.takes .tariffStage .uplink (frame (natBytes 4 5 ++ [2, 0, 1] ++ planBytes ++ [7, 0])) readStage
          ⟨5, [⟨0, some plan⟩, ⟨7, none⟩]⟩
      ∧ ¬ (([⟨3, none⟩, ⟨3, none⟩] : List StagedEntry).map (fun e => e.index)).Nodup
      ∧ (([⟨0, some plan⟩, ⟨7, none⟩] : List StagedEntry).map (fun e => e.index)).Nodup
      ∧ base.fares.staged = none ∧ base.time.handed.fares = false ∧ (ticked base).held = false
      ∧ (ticked base).time.handed.fares = true ∧ (ticked base).time.clockValid = true
      ∧ (ticked base).time.clock = 1000000 ∧ (ticked base).time.clock < 1000001 :=
  ⟨takesOf (by decide) rfl, takesOf (by decide) rfl, takesOf (by decide) rfl, takesOf (by decide) rfl, by decide⟩

def tokenBytes (card ride : Nat) : List Byte :=
  natBytes 2 5 ++ natBytes 2 ride ++ natBytes 5 card ++ natBytes 4 997270 ++ [0]

/-- A token's return into an EMPTY and into a VAN_RESERVED dock. -/
theorem witness_ReturnSettled :
    full.takes .inserted .rail (frame ([7] ++ natBytes 3 40 ++ [1] ++ tokenBytes 1 8)) readReturn
        ⟨6, 40, some (token 1 8)⟩
      ∧ full.takes .inserted .rail (frame ([5] ++ natBytes 3 40 ++ [1] ++ tokenBytes 1 8)) readReturn
          ⟨4, 40, some (token 1 8)⟩
      ∧ (full.dock 6).state = .empty ∧ (full.dock 4).state = .vanReserved 2 ∧ (5, 8) ∉ full.rides.settled
      ∧ full.time.clockValid = true ∧ 2 ≤ full.freeSlots ∧ full.fares.resolve 0 = some (plan, false)
      ∧ full.fares.resolve 1 = some (plan, true) ∧ full.card 1 = some { card 1 with refCount := 1 } :=
  ⟨takesOf (by decide) rfl, takesOf (by decide) rfl, by decide⟩

/-- The job of a reserved dock, a walk that reaches another EMPTY verified dock, and one that has none left. -/
theorem witness_remarksJob :
    full.slotOf 2 = some 1 ∧ full.job 1 = some (job 2 .deliver .filling 4)
      ∧ full.time.config.walk 4 .up .wrap = [] ++ 4 :: [5, 6, 7]
      ∧ ([5, 6, 7] : List DockNo).find?
          (fun x => decide (x ≠ 4 ∧ (full.dock x).state = .empty ∧ (full.dock x).verified = true)) = some 6
      ∧ ([5, 6, 7] : List DockNo).find? (fun x => decide (x ≠ 4 ∧ ((full.putDockState 6 .absent).dock x).state = .empty
          ∧ ((full.putDockState 6 .absent).dock x).verified = true)) = none := by decide

theorem witness_DeferredFareChargesNoCard :
    full.takes .inserted .rail (frame ([7] ++ natBytes 3 40 ++ [1] ++ tokenBytes 9 8)) readReturn
        ⟨6, 40, some (token 9 8)⟩
      ∧ full.takes .inserted .rail (frame ([7] ++ natBytes 3 40 ++ [1] ++ tokenBytes 4 8)) readReturn
          ⟨6, 40, some (token 4 8)⟩
      ∧ full.takes .inserted .rail (frame ([5] ++ natBytes 3 40 ++ [1] ++ tokenBytes 9 8)) readReturn
          ⟨4, 40, some (token 9 8)⟩
      ∧ full.card 9 = none ∧ (full.card 4).map (fun c => c.provisional) = some true ∧ (full.dock 6).state = .empty
      ∧ (full.dock 4).state = .vanReserved 2 ∧ full.fares.resolve 0 = some (plan, false)
      ∧ (5, 8) ∉ full.rides.settled ∧ full.time.clockValid = true ∧ 2 ≤ full.freeSlots :=
  ⟨takesOf (by decide) rfl, takesOf (by decide) rfl, takesOf (by decide) rfl, by decide⟩

/-- A deferred return into a reserved dock: the job reserves the next dock of its walk (R120). -/
theorem test_deferred_return_remarks :
    (let t := after full (.inserted .rail (frame ([5] ++ natBytes 3 40 ++ [1] ++ tokenBytes 9 8)))
     (t.dock 4).state = .docked ⟨40, 1000000, false⟩ ∧ (t.dock 6).state = .vanReserved 2
       ∧ (t.job 1).map (fun j => j.position) = some 6 ∧ t.cards = full.cards) := by decide

theorem witness_ReturnWithoutFare :
    full.takes .inserted .rail (frame ([7] ++ natBytes 3 40 ++ [1] ++ tokenBytes 1 3)) readReturn
        ⟨6, 40, some (token 1 3)⟩
      ∧ (clockless full).takes .inserted .rail (frame ([5] ++ natBytes 3 40 ++ [1] ++ tokenBytes 1 8)) readReturn
          ⟨4, 40, some (token 1 8)⟩
      ∧ full.takes .inserted .rail (frame ([7] ++ natBytes 3 40 ++ [0])) readReturn ⟨6, 40, none⟩
      ∧ base.takes .inserted .rail (frame ([7] ++ natBytes 3 40 ++ [0])) readReturn ⟨6, 40, none⟩
      ∧ full.takes .inserted .rail (frame ([1] ++ natBytes 3 40 ++ [0])) readReturn ⟨0, 40, none⟩
      ∧ full.takes .inserted .rail (frame ([2] ++ natBytes 3 40 ++ [0])) readReturn ⟨1, 40, none⟩
      ∧ (5, 3) ∈ full.rides.settled ∧ (clockless full).time.clockValid = false ∧ (planless full).fares.plan0 = none
      ∧ ({ full with journal := { full.journal with reserved := 1022 } } : State).freeSlots = 1
      ∧ (full.dock 0).state = .docked (bike 11) ∧ (full.dock 1).state = .held (bike 12) ⟨2, 1, .terminal⟩ :=
  ⟨takesOf (by decide) rfl, takesOf (by decide) rfl, takesOf (by decide) rfl, takesOf (by decide) rfl,
    takesOf (by decide) rfl, takesOf (by decide) rfl, by decide⟩

/-- A dock that no FILLING job claims, and one that exactly one claims, with its last OPEN item. -/
theorem witness_ReturnWithoutFare_stray :
    (∀ k : SlotNo, base.job k = none) ∧ (base.dock 6).state = .empty ∧ (full.dock 6).state = .empty
      ∧ full.job 1 = some (job 2 .deliver .filling 4) ∧ full.time.config.segmentOf 6 = some 1
      ∧ (job 2 .deliver .filling 4).claimed.getLsbD 1 = true
      ∧ (∀ k : SlotNo, k ≠ 1 → (full.job k).all (fun j => decide (j.state ≠ .filling)))
      ∧ (job 2 .deliver .filling 4).marked = [] ++ ⟨4, .open⟩ :: [] ∧ (full.dock 4).state = .vanReserved 2 := by decide

theorem witness_TokenReportAnswers :
    full.takes .tokenReport .rail (frame ([1] ++ natBytes 3 16 ++ [0])) readReturn ⟨0, 16, none⟩
      ∧ full.takes .tokenReport .rail (frame ([8] ++ natBytes 3 16 ++ [1] ++ tokenBytes 1 3)) readReturn
          ⟨7, 16, some (token 1 3)⟩
      ∧ full.takes .tokenReport .rail (frame ([8] ++ natBytes 3 16 ++ [1] ++ tokenBytes 1 8)) readReturn
          ⟨7, 16, some (token 1 8)⟩
      ∧ full.takes .tokenReport .rail (frame ([8] ++ natBytes 3 16 ++ [1] ++ tokenBytes 4 8)) readReturn
          ⟨7, 16, some (token 4 8)⟩
      ∧ full.takes .tokenReport .rail (frame ([8] ++ natBytes 3 16 ++ [1] ++ tokenBytes 9 8)) readReturn
          ⟨7, 16, some (token 9 8)⟩
      ∧ (planless full).takes .tokenReport .rail (frame ([8] ++ natBytes 3 16 ++ [1] ++ tokenBytes 1 8)) readReturn
          ⟨7, 16, some (token 1 8)⟩
      ∧ full.takes .tokenReport .rail (frame ([8] ++ natBytes 3 16 ++ [0])) readReturn ⟨7, 16, none⟩
      ∧ full.rail.awaited = some 7 ∧ (full.dock 7).state.bike? = some ⟨16, 900000, true⟩
      ∧ (5, 3) ∈ full.rides.settled ∧ (5, 8) ∉ full.rides.settled ∧ (planless full).fares.plan0 = none
      ∧ (clockless full).time.clockValid = false ∧ (slotless full).freeSlots < 2 :=
  ⟨takesOf (by decide) rfl, takesOf (by decide) rfl, takesOf (by decide) rfl, takesOf (by decide) rfl,
    takesOf (by decide) rfl, takesOf (by decide) rfl, takesOf (by decide) rfl, by decide⟩

/-- The settled case for an entry that is charged, for a provisional one and for none, and the TAG report. -/
theorem witness_TokenReportAnswers_settled :
    full.time.clockValid = true ∧ 2 ≤ full.freeSlots ∧ full.fares.resolve 0 = some (plan, false)
      ∧ full.card 1 = some { card 1 with refCount := 1 } ∧ (card 1).provisional = false
      ∧ (full.card 4).map (fun x => x.provisional) = some true ∧ full.card 9 = none
      ∧ full.fault 16 = none ∧ full.faults.length < 128 ∧ 1 ≤ full.freeSlots
      ∧ full.fares.resolve 7 = some (plan, true) := by decide

def sweeping : State := { full with rail := { full.rail with awaited := none } }

theorem witness_SweepReadsNextHeldToken :
    (sweeping.held = false ∧ sweeping.time.config.configured = true ∧ sweeping.time.clockValid = true
      ∧ sweeping.fares.plan0.isSome = true ∧ sweeping.journal.mode ≠ .reserve
      ∧ (∀ d, .readToken d ∉ sweeping.rail.queue) ∧ sweeping.rail.awaited = none
      ∧ sweeping.rail.queue.length + sweeping.rail.opens.length < 24)
      ∧ (sweeping.dock 7).state = .docked ⟨16, 900000, true⟩ ∧ full.rail.awaited ≠ none
      ∧ (∀ d, (base.dock d).state.tokenHeld = false) := by decide

theorem witness_TopupJudgedAndCredited :
    full.takes .topup .terminal (frame (natBytes 5 1 ++ natBytes 4 100)) readTopup ⟨1, 100⟩
      ∧ full.takes .topup .terminal (frame (natBytes 5 9 ++ natBytes 4 50000)) readTopup ⟨9, 50000⟩
      ∧ full.time.clockValid = true ∧ full.card 1 = some { card 1 with refCount := 1 } ∧ full.journal.mode ≠ .reserve
      ∧ full.journal.modeRight ∧ (full.card 4).map (fun c => c.provisional) = some true
      ∧ (5000 : Int) + 995000 ≤ 1000000 ∧ (1000000 : Int) < 5000 + 995001 ∧ (inReserve full).journal.mode = .reserve :=
  ⟨takesOf (by decide) rfl, takesOf (by decide) rfl, by decide, by decide, by decide, rfl, by decide, by decide, by decide,
    by decide⟩

def loadBytes (card through : Nat) : List Byte :=
  frame (natBytes 5 card ++ intBytes 200 ++ natBytes 4 0 ++ intBytes (-1) ++ [1, 1, 0, 0, 10] ++ natBytes 4 through)

def loadReq (card through : Nat) : LoadReq :=
  { card := card, balance := 200, charged := 0, day := -1, state := .active, kind := .payg, tariff := 0, discount := 10,
    through := through }

theorem witness_CardLoadMerges :
    full.takes .cardLoad .uplink (loadBytes 1 0) readLoad (loadReq 1 0)
      ∧ full.takes .cardLoad .uplink (loadBytes 9 1) readLoad (loadReq 9 1)
      ∧ full.takes .cardLoad .uplink (loadBytes 1 2) readLoad (loadReq 1 2)
      ∧ full.journal.marker = 0 ∧ full.journal.lastSeq = 1
      ∧ ({ full with journal := { full.journal with marker := 1 } } : State).journal.marker = 1
      ∧ full.card 1 = some { card 1 with refCount := 1 } ∧ full.card 9 = none
      ∧ full.cards.length < 1024 ∧ topupRecord.names 1 = true ∧ (0 : Nat) < topupRecord.seq
      ∧ topupRecord.adds = 500 ∧ (clockless full).time.clockValid = false
      ∧ (clockless full).takes .cardLoad .uplink (loadBytes 1 0) readLoad (loadReq 1 0) :=
  ⟨takesOf (by decide) rfl, takesOf (by decide) rfl, takesOf (by decide) rfl, by decide, by decide, by decide, by decide,
    by decide, by decide, by decide, by decide, by decide, by decide, takesOf (by decide) rfl⟩

/-- A full table of pinned entries, and one with entries that are not. -/
theorem witness_CardLoadMerges_full_table :
    packed.takes .cardLoad .uplink (loadBytes 9 1) readLoad (loadReq 9 1)
      ∧ (packed.card 9).isNone = true ∧ 1024 ≤ packed.cards.length
      ∧ packed.cards.all (fun c => decide (0 < c.refCount) || c.inFlight.isSome || c.holdDock.isSome) = true
      ∧ packedButThree.takes .cardLoad .uplink (loadBytes 9 1) readLoad (loadReq 9 1)
      ∧ packedButThree.card 9 = none ∧ packedButThree.evicts (some 3) := by
  refine ⟨takesOf (by decide) rfl, ?_, ?_, ?_, takesOf (by decide) rfl, ?_, packedButThree_evicts⟩
  · simp [State.card, packed, findCard, card]
  · simp [packed]
  · simp [packed]
  · simp [State.card, packedButThree, findCard, card]

theorem witness_CardDropRemovesUnpinned :
    full.takes .cardDrop .uplink (frame (natBytes 5 9)) readCard 9
      ∧ full.takes .cardDrop .uplink (frame (natBytes 5 1)) readCard 1
      ∧ full.takes .cardDrop .uplink (frame (natBytes 5 4)) readCard 4 ∧ full.card 9 = none
      ∧ full.card 1 = some { card 1 with refCount := 1 } ∧ full.card 2 = some { card 2 with holdDock := some 1 }
      ∧ full.card 3 = some { card 3 with inFlight := some 2 }
      ∧ full.card 4 = some { card 4 with provisional := true, balance := 0 } :=
  ⟨takesOf (by decide) rfl, takesOf (by decide) rfl, takesOf (by decide) rfl, by decide⟩

/-- The checks of R87 and R88, as the statement lists them. -/
def reportChecks (s : State) (p : Port) (req : ReportReq) : Option RefusalReason :=
  let named : Option Nat := match req.bike, req.dock with
    | some n, _ => some n
    | none, some d => (s.dock d).state.bike?.map (fun b => b.bike)
    | none, none => none
  firstFailing
    [(!((decide (p = .terminal) && req.category.rider) || (decide (p = .service) && req.category.crew)),
        RefusalReason.notPermitted),
     (req.bike.isSome == req.dock.isSome, .outOfRange), (named.isNone, .dockState),
     (decide (p = .terminal) && decide (s.journal.mode = .reserve), .journalReserve),
     (named.any (fun n => (s.fault n).isNone && decide (128 ≤ s.faults.length)
        && s.faults.all (fun e => e.quarantined)), .tableFull)]

/-- A fault table full of quarantined bikes. -/
def faultPacked : State := { full with faults := List.replicate 128 ⟨90, 6, Category.frame.single, [], true, 5⟩ }

theorem witness_ReportScoresAndQuarantines_refused :
    reportChecks full .terminal ⟨some 1, .frame, some 11, none⟩ = none
      ∧ reportChecks full .terminal ⟨some 1, .tag, some 11, none⟩ = some .notPermitted
      ∧ reportChecks full .service ⟨none, .brakes, none, none⟩ = some .outOfRange
      ∧ reportChecks full .service ⟨none, .brakes, some 11, some 0⟩ = some .outOfRange
      ∧ reportChecks full .service ⟨none, .brakes, none, some 6⟩ = some .dockState
      ∧ reportChecks (inReserve full) .terminal ⟨some 1, .frame, some 11, none⟩ = some .journalReserve
      ∧ reportChecks (inReserve full) .service ⟨none, .brakes, some 11, none⟩ = none
      ∧ reportChecks faultPacked .service ⟨none, .brakes, some 91, none⟩ = some .tableFull
      ∧ reportChecks faultPacked .service ⟨none, .brakes, some 90, none⟩ = none
      ∧ full.takes .reportFault .service (frame [0, 1, 0, 1, 7]) (readReport .service) ⟨none, .brakes, none, some 6⟩ :=
  ⟨by decide, by decide, by decide, by decide, by decide, by decide, by decide, by decide, by decide,
    takesOf (by decide) rfl⟩

/-- A crew report, and a rider report that does not quarantine. -/
theorem witness_ReportScoresAndQuarantines :
    full.takes .reportFault .service (frame ([0, 1, 1] ++ natBytes 3 11 ++ [0])) (readReport .service)
        ⟨none, .brakes, some 11, none⟩
      ∧ full.takes .reportFault .terminal (frame ([1] ++ natBytes 5 1 ++ [6, 0, 1, 2])) (readReport .terminal)
          ⟨some 1, .other, none, some 1⟩
      ∧ categoryAllowed .service .brakes = true ∧ categoryAllowed .terminal .other = true
      ∧ (full.reportedBike ⟨none, .brakes, some 11, none⟩).toOption = some 11
      ∧ (full.reportedBike ⟨some 1, .other, none, some 1⟩).toOption = some 12 ∧ full.journal.mode ≠ .reserve
      ∧ full.fault 11 = some ⟨11, 2, Category.tyre.single, [⟨.service, none, .tyre, 5⟩], false, 5⟩
      ∧ full.fault 12 = none ∧ full.fault 13 = none ∧ full.faults.length < 128 ∧ 1 ≤ full.freeSlots
      ∧ (slotless full).freeSlots = 0 ∧ (full.dock 1).state = .held (bike 12) ⟨2, 1, .terminal⟩
      ∧ (full.dock 2).state = .unlocking (bike 13) ⟨3, 4, false, 1, false, .uplink⟩ :=
  ⟨takesOf (by decide) rfl, takesOf (by decide) rfl, by decide⟩

/-- A full fault table with three entries that are not quarantined: one of a higher score, and two of one score, of which the
lower bike number was reported later. -/
def faultCrowded : State :=
  { full with
    faults := List.replicate 125 ⟨90, 6, Category.frame.single, [], true, 5⟩
      ++ [⟨91, 3, Category.tyre.single, [], false, 1⟩, ⟨92, 2, Category.tyre.single, [], false, 8⟩,
          ⟨93, 2, Category.tyre.single, [], false, 7⟩] }

/-- The three ways a report finds its entry: its bike's own, a new one, and a new one in place of the lowest (R95); and a
report that finds none (R96). -/
theorem witness_scoresOn :
    full.scoresOn 11 ⟨11, 2, Category.tyre.single, [⟨.service, none, .tyre, 5⟩], false, 5⟩ false none
      ∧ full.scoresOn 12 ⟨12, 0, 0, [], false, 1000000⟩ true none
      ∧ faultCrowded.scoresOn 12 ⟨12, 0, 0, [], false, 1000000⟩ true (some 93)
      ∧ faultPacked.faultsQuarantined 91 := by
  refine ⟨Or.inl ⟨by decide, rfl, rfl⟩, Or.inr ⟨by decide, rfl, by decide, Or.inl ⟨by decide, rfl⟩⟩,
    Or.inr ⟨?_, rfl, by decide, Or.inr ⟨?_, ⟨93, 2, Category.tyre.single, [], false, 7⟩, ?_, rfl, rfl, ?_⟩⟩, by decide,
    by decide, by decide⟩
  · decide
  · decide
  · decide
  · decide

theorem witness_ReportScoresAndQuarantines_replaces :
    faultCrowded.takes .reportFault .service (frame ([0, 1, 1] ++ natBytes 3 12 ++ [0])) (readReport .service)
        ⟨none, .brakes, some 12, none⟩
      ∧ (faultCrowded.reportedBike ⟨none, .brakes, some 12, none⟩).toOption = some 12 :=
  ⟨takesOf (by decide) rfl, by decide⟩

theorem witness_ClearFaultRemovesEntry :
    full.takes .clearFault .service (frame (natBytes 3 12)) readBike 12
      ∧ full.takes .clearFault .uplink (frame (natBytes 3 11)) readBike 11 ∧ full.fault 12 = none
      ∧ (full.fault 11).isSome = true :=
  ⟨takesOf (by decide) rfl, takesOf (by decide) rfl, by decide⟩

/-- The checks of R108, as the statement lists them. -/
def startChecks (s : State) (req : StartReq) : Option RefusalReason :=
  let c := s.time.config
  let sequence := c.walk req.start req.direction req.walk
  let claims := fun (k : Fin 8) => c.claimed req.start req.direction req.walk k.val
  firstFailing
    [(decide (c.segments.sum ≤ req.start.val) || (decide (req.kind = .collect) != req.faultHandling.isSome)
        || (decide (req.kind ≠ .audit) != req.requested.isSome) || (decide (req.kind = .audit) != req.expected.isSome)
        || req.expected.any (fun l => l.isEmpty || decide (sequence.length < l.length)), RefusalReason.jobIllegal),
     ((List.finRange 4).all (fun i => (s.job i).isSome), .tableFull),
     ((List.finRange 8).any (fun k => claims k && (s.vans.claims[k]).isSome), .segmentBusy),
     ((decide (s.journal.mode = .reserve) && decide (req.kind ≠ .audit)) || decide (s.freeSlots < 1 + (req.count + 7) / 8),
        .journalReserve),
     ((decide (req.kind = .collect) || decide (req.kind = .sweep))
        && decide (24 ≤ s.rail.queue.length + s.rail.opens.length), .railBusy)]

theorem witness_StartJobWalks_refused :
    startChecks base ⟨.sweep, 7, .down, .wrap, none, some 1, none⟩ = none
      ∧ startChecks base ⟨.sweep, 8, .down, .wrap, none, some 1, none⟩ = some .jobIllegal
      ∧ startChecks base ⟨.collect, 7, .down, .wrap, none, some 1, none⟩ = some .jobIllegal
      ∧ startChecks base ⟨.audit, 7, .down, .wrap, none, none, some []⟩ = some .jobIllegal
      ∧ startChecks base ⟨.audit, 7, .down, .wrap, none, none, some (List.replicate 4 none)⟩ = none
      ∧ startChecks base ⟨.audit, 7, .down, .wrap, none, none, some (List.replicate 5 none)⟩ = some .jobIllegal
      ∧ startChecks { base with vans := { base.vans with jobs := Vector.replicate 4 (some (job 1 .collect .open 3)) } }
          ⟨.sweep, 7, .down, .wrap, none, some 1, none⟩ = some .tableFull
      ∧ startChecks full ⟨.sweep, 7, .down, .wrap, none, some 1, none⟩ = some .segmentBusy
      ∧ startChecks (inReserve base) ⟨.sweep, 7, .down, .wrap, none, some 1, none⟩ = some .journalReserve
      ∧ startChecks (slotless base) ⟨.deliver, 7, .down, .wrap, none, some 1, none⟩ = some .journalReserve
      ∧ startChecks (crowded base) ⟨.sweep, 7, .down, .wrap, none, some 1, none⟩ = some .railBusy
      ∧ startChecks (crowded base) ⟨.deliver, 7, .down, .wrap, none, some 1, none⟩ = none
      ∧ base.job 0 = none ∧ full.job 3 = none ∧ ∀ k, k < 3 → full.job k ≠ none := by decide

/-- The arithmetic of a walk at a segment's first and last dock. -/
theorem witness_StartJobWalks_arithmetic :
    base.time.config.segmentsSound ∧ base.time.config.segments = [] ++ 4 :: [4] ∧ base.time.config.segments = [4] ++ 4 :: []
      ∧ ([] : List Nat).sum ≤ 0 ∧ 3 < ([] : List Nat).sum + 4 ∧ ([4] : List Nat).sum ≤ 4 ∧ 7 < ([4] : List Nat).sum + 4 :=
  ⟨⟨by decide, by decide⟩, rfl, rfl, by decide, by decide, by decide, by decide⟩

/-- A SWEEP that marks, a DELIVER that marks, a COLLECT that finds nothing and an AUDIT. -/
theorem witness_StartJobWalks :
    (unclaimed full).takes .startJob .service (frame [2, 8, 2, 1, 0, 1, 1, 0]) readStart ⟨.sweep, 7, .down, .wrap, none, some 1, none⟩
      ∧ base.takes .startJob .service (frame [3, 1, 1, 1, 0, 1, 2, 0]) readStart
          ⟨.deliver, 0, .up, .wrap, none, some 2, none⟩
      ∧ base.takes .startJob .uplink (frame [1, 1, 1, 2, 1, 2, 1, 32, 0]) readStart
          ⟨.collect, 0, .up, .cross, some .stop, some 32, none⟩
      ∧ base.takes .startJob .uplink (frame ([4, 8, 2, 2, 0, 0, 1, 2] ++ natBytes 3 0 ++ natBytes 3 9)) readStart
          ⟨.audit, 7, .down, .cross, none, none, some [none, some 9]⟩
      ∧ ((unclaimed full).judgeStart ⟨.sweep, 7, .down, .wrap, none, some 1, none⟩).toOption = some 3
      ∧ (base.judgeStart ⟨.deliver, 0, .up, .wrap, none, some 2, none⟩).toOption = some 0
      ∧ (base.judgeStart ⟨.collect, 0, .up, .cross, some .stop, some 32, none⟩).toOption = some 0
      ∧ (base.judgeStart ⟨.audit, 7, .down, .cross, none, none, some [none, some 9]⟩).toOption = some 0
      ∧ (walkMarks full.judgeSweep 1 (full.time.config.walk 7 .down .wrap)).1 = [7]
      ∧ (walkMarks base.judgeDeliver 2 (base.time.config.walk 0 .up .wrap)).1 = [0, 1]
      ∧ (walkMarks (base.judgeCollect .stop) 32 (base.time.config.walk 0 .up .cross)).1 = [] :=
  ⟨takesOf (by decide) rfl, takesOf (by decide) rfl, takesOf (by decide) rfl, takesOf (by decide) rfl, by decide⟩

theorem witness_JobCountsBikes :
    full.takes .removed .rail (frame ([4] ++ natBytes 3 14)) readRemoved ⟨3, 14⟩
      ∧ full.takes .inserted .rail (frame ([5] ++ natBytes 3 40 ++ [0])) readReturn ⟨4, 40, none⟩
      ∧ full.slotOf 1 = some 0 ∧ full.job 0 = some (job 1 .collect .open 3) ∧ full.slotOf 2 = some 1
      ∧ full.job 1 = some (job 2 .deliver .filling 4) ∧ (full.dock 3).state = .vanHeld (bike 14) 1
      ∧ (full.dock 4).state = .vanReserved 2
      ∧ ({ job 1 .collect .open 3 with marked := [⟨3, .open⟩, ⟨0, .open⟩] } : JobRecord).openDocks = [3, 0] :=
  ⟨takesOf (by decide) rfl, takesOf (by decide) rfl, by decide⟩

/-- The last OPEN item of a job counted: its batch's record is closed, its claim leaves the map, and it ends (R8, R125). -/
theorem test_removed_ends_job :
    (let t := after full (.removed .rail (frame ([4] ++ natBytes 3 14)))
     decide (t.rail.opens = []) && decide (t.vans.claims[(0 : Fin 8)] = none)
       && decide ((t.job 0).map (fun j => j.state) = some .ended) && decide (t.journal.reserved = 3)) = true := by decide

/-- A batch that is not fetched loses the dock, and is withdrawn where it names no other (R11). -/
theorem test_removed_leaves_batch :
    (after { full with rail := { full.rail with queue := [.batchUnlock 1 [3, 6], .batchUnlock 9 [3]], opens := [] } }
      (.removed .rail (frame ([4] ++ natBytes 3 14)))).rail.queue = [.batchUnlock 1 [6]] := by decide

theorem witness_RetireAndAbort :
    full.takes .retireJob .service (frame [9]) readJob 9 ∧ full.takes .abortJob .uplink (frame [1]) readJob 1
      ∧ full.takes .retireJob .uplink (frame [3]) readJob 3 ∧ full.takes .abortJob .service (frame [3]) readJob 3
      ∧ full.takes .retireJob .service (frame [2]) readJob 2 ∧ full.slotOf 9 = none ∧ full.slotOf 3 = some 2
      ∧ full.slotOf 1 = some 0 ∧ (full.job 0).map (fun j => (j.state, j.origin)) = some (.open, .service)
      ∧ (full.job 2).map (fun j => (j.state, j.origin)) = some (.ended, .service)
      ∧ ({ job 1 .collect .open 3 with origin := .uplink } : JobRecord).origin = .uplink :=
  ⟨takesOf (by decide) rfl, takesOf (by decide) rfl, takesOf (by decide) rfl, takesOf (by decide) rfl,
    takesOf (by decide) rfl, by decide⟩

def oneWindow : State := (ticked full).setJob 1 (some { job 2 .deliver .filling 4 with window := some 2 })

theorem witness_VanWindowExpires :
    full.jobDue 3 = false ∧ oneWindow.held = false ∧ oneWindow.time.handed.vans = true
      ∧ oneWindow.job 0 = some (job 1 .collect .open 3) ∧ (job 1 .collect .open 3).window = some 1
      ∧ ∀ k, k ≠ 0 → oneWindow.jobDue k = false := by decide

/-- Two windows that are due in the one tick; both jobs end in it, their JOB_ENDs in slot order. -/
theorem witness_VanWindowExpires_several :
    (ticked full).held = false ∧ (ticked full).time.handed.vans = true ∧ (ticked full).jobDue 0 = true
      ∧ (ticked full).jobDue 1 = true ∧ (job 2 .deliver .filling 4).window = some 1 := by decide

theorem test_windows_of_one_tick :
    (let t := after (ticked full) (.vanWindowExpiry 1)
     (t.job 0).map (fun j => j.state) = some .ended ∧ (t.job 1).map (fun j => j.state) = some .ended
       ∧ t.journal.records.map (fun r => r.seq) = [1, 2, 3] ∧ t.rail.queue = [.unlock 2 (token 3 4), .relock [3]]) := by
  decide

theorem witness_StatusRequests :
    full.takes .dockStatus .rail (frame [1, 64]) readOptDock (some 63)
      ∧ full.takes .dockStatus .service (frame [0]) readOptDock none
      ∧ State.reset.takes .stationStatus .terminal (frame []) readEmpty ()
      ∧ full.takes .cardStatus .terminal (frame ([1] ++ natBytes 5 1)) readOptCard (some 1)
      ∧ full.takes .cardStatus .uplink (frame [0]) readOptCard none
      ∧ full.takes .faultStatus .service (frame ([1] ++ natBytes 3 11)) readFaultQuery (.bike 11)
      ∧ full.takes .faultStatus .service (frame [0, 0, 0, 0]) readFaultQuery (.list 1)
      ∧ full.takes .jobStatus .service (frame [1, 1]) readOptJob (some 1) ∧ full.card 9 = none ∧ full.fault 9 = none
      ∧ full.slotOf 9 = none ∧ full.slotOf 1 = some 0
      ∧ full.takes .jobStatus .service (frame [0]) readOptJob none ∧ full.takes .jobStatus .uplink (frame [0]) readOptJob none
      ∧ (job 1 .collect .open 3).origin = .service
      ∧ ({ job 1 .collect .open 3 with origin := .uplink } : JobRecord).origin = .uplink :=
  ⟨takesOf (by decide) rfl, takesOf (by decide) rfl, takesOf (by decide) rfl, takesOf (by decide) rfl,
    takesOf (by decide) rfl, takesOf (by decide) rfl, takesOf (by decide) rfl, takesOf (by decide) rfl, by decide, by decide,
    by decide, by decide, takesOf (by decide) rfl, takesOf (by decide) rfl, rfl, rfl⟩

theorem witness_JournalReadCarriesHeldRecords :
    full.takes .journalRead .uplink (frame [0, 16]) readRead ⟨none, 16⟩
      ∧ full.takes .journalRead .uplink (frame ([1] ++ natBytes 4 2 ++ [1])) readRead ⟨some 2, 1⟩
      ∧ full.takes .journalRead .uplink (frame ([1] ++ natBytes 4 1 ++ [1])) readRead ⟨some 1, 1⟩
      ∧ full.journal.records = [] ++ [topupRecord] ∧ (∀ r ∈ full.journal.records, r.seq ≠ 2)
      ∧ ([topupRecord] : List Record).head? = some topupRecord ∧ topupRecord.seq = 1 :=
  ⟨takesOf (by decide) rfl, takesOf (by decide) rfl, takesOf (by decide) rfl, by decide⟩

theorem witness_JournalReleaseFreesOldest :
    full.takes .journalRelease .uplink (frame (natBytes 4 2)) readThrough 2
      ∧ full.takes .journalRelease .uplink (frame (natBytes 4 0)) readThrough 0
      ∧ full.takes .journalRelease .uplink (frame (natBytes 4 1)) readThrough 1 ∧ full.journal.nextSeq - 1 = 1
      ∧ full.journal.marker = 0 :=
  ⟨takesOf (by decide) rfl, takesOf (by decide) rfl, takesOf (by decide) rfl, by decide⟩

theorem witness_ClockSetAndSetMode :
    State.reset.takes .clockSet .uplink (frame (natBytes 4 4294967295)) readTime 4294967295
      ∧ base.takes .setMode .uplink (frame [2]) readMode .closed ∧ base.takes .setMode .uplink (frame [1]) readMode .open
      ∧ base.time.stationMode = .open :=
  ⟨takesOf (by decide) rfl, takesOf (by decide) rfl, takesOf (by decide) rfl, by decide⟩

def noItems : ConfigureReq := ⟨none, none, none, none, none, none, none, none, none⟩

theorem witness_ConfigureJudgedAndApplied :
    State.reset.takes .configure .uplink (frame [0, 0, 0, 0, 0, 0, 0, 0, 0]) readConfigure noItems
      ∧ State.reset.takes .configure .uplink (frame [1, 0, 5, 1, 1, 8, 0, 0, 0, 0, 0, 0, 0]) readConfigure
          { noItems with station := some 5, segments := some [8] }
      ∧ base.takes .configure .uplink (frame [0, 0, 0, 0, 0, 0, 1, 15, 0, 0]) readConfigure
          { noItems with threshold := some 15 }
      ∧ (closed full).takes .configure .uplink (frame [0, 1, 1, 4, 0, 0, 0, 0, 0, 0, 0]) readConfigure
          { noItems with segments := some [4] }
      ∧ State.reset.time.config.configured = false ∧ State.reset.busy = false ∧ full.busy = true
      ∧ (closed { base with rail := full.rail }).busy = true
      ∧ (closed base).busy = false :=
  ⟨takesOf (by decide) rfl, takesOf (by decide) rfl, takesOf (by decide) rfl, takesOf (by decide) rfl, by decide⟩

/-- A quiet station of EMPTY docks with RELOCKs in its queue and a cursor on its last dock. -/
def relocking : State :=
  { closed base with rail := { base.rail with queue := [.relock [2, 6], .relock [7], .relock [1]], cursor := some 7 } }

/-- A change to one segment of four docks, which removes docks 5 to 8. -/
theorem witness_ConfigureJudgedAndApplied_removes :
    relocking.takes .configure .uplink (frame [0, 1, 1, 4, 0, 0, 0, 0, 0, 0, 0]) readConfigure
        { noItems with segments := some [4] }
      ∧ relocking.busy = false ∧ relocking.time.config.segments ≠ [4]
      ∧ (List.finRange 64).filter (fun d => decide ([4].sum ≤ d.val) && decide (d.val < relocking.time.config.segments.sum))
          = [4, 5, 6, 7]
      ∧ (List.finRange 64).all (fun d => decide (d.val < 4) || (relocking.dock d).state.isEmpty
          || (relocking.dock d).state.isAbsent) = true :=
  ⟨takesOf (by decide) rfl, by decide⟩

/-- The removed docks leave the RELOCKs, one left naming none is withdrawn, and the cursor on one of them goes (R160). -/
theorem test_configure_removes_docks :
    (let t := after relocking (.configure .uplink (frame [0, 1, 1, 4, 0, 0, 0, 0, 0, 0, 0]))
     t.rail.queue = [.relock [2], .relock [1]] ∧ t.rail.cursor = none ∧ t.dock 4 = ⟨.absent, false⟩) := by decide

theorem witness_TickAndStaleTimer :
    base.time.clockValid = true ∧ base.time.clock < 4294967295 ∧ (clockless base).time.clockValid = false
      ∧ ({ base with time := { base.time with clock := 4294967295 } } : State).time.clock = 4294967295
      ∧ (holding base).held = true ∧ base.held = false ∧ base.time.handed = ⟨false, false, false, false⟩
      ∧ 2 ≤ base.time.staleTimer ∧ (ticked base).time.handed.stale = true
      ∧ ({ ticked base with time := { (ticked base).time with staleTimer := 1 } } : State).time.staleTimer = 1
      ∧ ({ ticked base with time := { (ticked base).time with link := .online } } : State).time.link = .online
      ∧ (ticked base).time.link = .offline := by decide

theorem witness_FetchTakesOldestCommand :
    full.takes .fetchCommand .rail (frame []) readEmpty () ∧ base.takes .fetchCommand .rail (frame []) readEmpty ()
      ∧ base.rail.queue = [] ∧ full.rail.queue = [.unlock 2 (token 3 4)]
      ∧ (full.dock 2).state = .unlocking (bike 13) ⟨3, 4, false, 1, false, .uplink⟩ ∧ full.slotOf 1 = some 0
      ∧ full.job 0 = some (job 1 .collect .open 3) :=
  ⟨takesOf (by decide) rfl, takesOf (by decide) rfl, by decide⟩

/-- The station with one command in its queue, and nothing fetched. -/
def queued (c : Command) : State := { full with rail := { full.rail with queue := [c], opens := [], awaited := none } }

/-- Each of the other kinds at the front of the queue. -/
theorem witness_FetchTakesOldestCommand_kinds :
    (queued (.batchUnlock 1 [3])).takes .fetchCommand .rail (frame []) readEmpty ()
      ∧ (queued (.relock [5, 6])).takes .fetchCommand .rail (frame []) readEmpty ()
      ∧ (queued (.readToken 7)).takes .fetchCommand .rail (frame []) readEmpty ()
      ∧ (queued (.batchUnlock 1 [3])).rail.queue = [.batchUnlock 1 [3]] ∧ (queued (.batchUnlock 1 [3])).slotOf 1 = some 0
      ∧ (queued (.batchUnlock 1 [3])).job 0 = some (job 1 .collect .open 3)
      ∧ (queued (.relock [5, 6])).rail.queue = [.relock [5, 6]] ∧ (queued (.readToken 7)).rail.queue = [.readToken 7] :=
  ⟨takesOf (by decide) rfl, takesOf (by decide) rfl, takesOf (by decide) rfl, by decide⟩

/-- What a fetch of each leaves: a record of the batch, nothing of a RELOCK but the sweep that may act, an awaited read. -/
theorem test_fetch_kinds :
    (after (queued (.batchUnlock 1 [3])) (.fetchCommand .rail (frame []))).rail.opens = [⟨.job 1, [3]⟩]
      ∧ (after (queued (.relock [5, 6])) (.fetchCommand .rail (frame []))).rail.queue = [.readToken 7]
      ∧ (after (queued (.readToken 7)) (.fetchCommand .rail (frame []))).rail.awaited = some 7 := by decide

theorem witness_ForcedRemoval :
    full.takes .removed .rail (frame ([7] ++ natBytes 3 1)) readRemoved ⟨6, 1⟩
      ∧ full.takes .removed .rail (frame ([6] ++ natBytes 3 1)) readRemoved ⟨5, 1⟩
      ∧ full.takes .removed .rail (frame ([1] ++ natBytes 3 1)) readRemoved ⟨0, 1⟩
      ∧ full.takes .removed .rail (frame ([2] ++ natBytes 3 1)) readRemoved ⟨1, 1⟩
      ∧ (full.dock 6).state.bike? = none ∧ (full.dock 5).state = .outOfService (some (bike 15)) .sensor
      ∧ (full.dock 0).state = .docked (bike 11) ∧ (full.dock 1).state = .held (bike 12) ⟨2, 1, .terminal⟩
      ∧ full.fault 12 = none ∧ full.faults.length < 128 ∧ 1 ≤ full.freeSlots :=
  ⟨takesOf (by decide) rfl, takesOf (by decide) rfl, takesOf (by decide) rfl, takesOf (by decide) rfl, by decide⟩

/-- A removal takes its dock out of a queued RELOCK, and the RELOCK with it where it names no other (R13). -/
theorem test_removed_from_relock :
    (after { full with rail := { full.rail with queue := [.relock [0, 5], .relock [0]] } }
      (.removed .rail (frame ([1] ++ natBytes 3 11)))).rail.queue = [.relock [5]] := by decide

theorem witness_DockFaultTakesDockOut :
    full.takes .lockJam .rail (frame [64]) readDock 63 ∧ full.takes .lockJam .rail (frame [3]) readDock 2
      ∧ full.takes .sensorFault .rail (frame [2, 2]) readSensor ⟨1, .sensor⟩
      ∧ full.takes .sensorFault .rail (frame [4, 3]) readSensor ⟨3, .tagReader⟩
      ∧ full.takes .lockJam .rail (frame [5]) readDock 4 ∧ (full.dock 63).state = .absent
      ∧ (full.dock 2).state = .unlocking (bike 13) ⟨3, 4, false, 1, false, .uplink⟩ ∧ (full.dock 6).state = .empty
      ∧ (full.dock 1).state = .held (bike 12) ⟨2, 1, .terminal⟩ ∧ (full.dock 3).state = .vanHeld (bike 14) 1
      ∧ (full.dock 4).state = .vanReserved 2 ∧ full.slotOf 1 = some 0 ∧ full.job 0 = some (job 1 .collect .open 3)
      ∧ full.slotOf 2 = some 1 ∧ full.job 1 = some (job 2 .deliver .filling 4) :=
  ⟨takesOf (by decide) rfl, takesOf (by decide) rfl, takesOf (by decide) rfl, takesOf (by decide) rfl,
    takesOf (by decide) rfl, by decide⟩

/-- A fault voids a release, unfetched or fetched, as JAMMED (R34), and leaves no command for its dock. -/
theorem test_dock_fault_voids_release :
    (let t := after full (.lockJam .rail (frame [3]))
     t.rides.uplinkOutcomes = [⟨.releaseLapsed 4 .jammed, 3, 2, 1000000⟩] ∧ t.rail.queue = [] ∧ t.journal.reserved = 4)
      ∧ (after fetchedRelease (.lockJam .rail (frame [3]))).rail.opens = [] := by decide

/-- A fault at a job's last OPEN item ends the job, and its batch's record is closed (R117). -/
theorem test_dock_fault_ends_job :
    (let t := after full (.sensorFault .rail (frame [4, 2]))
     t.rail.opens = [] ∧ (t.job 0).map (fun j => (j.state, j.conditions.dockFault)) = some (.ended, true)
       ∧ t.vans.claims[(0 : Fin 8)] = none ∧ t.journal.records.length = 2) := by decide

/-- A report unsound because a bike number stands without the present flag, and a sound one on segment 2. -/
theorem witness_CensusCorrectsListedDocks :
    full.takes .census .rail (frame ([0, 1, 1, 4] ++ natBytes 3 5)) readCensus ⟨none, [⟨0, false, false, some 5⟩]⟩
      ∧ full.takes .census .rail (frame ([2, 1, 8, 5] ++ natBytes 3 5)) readCensus ⟨some 1, [⟨7, true, false, some 5⟩]⟩
      ∧ (full.dock 7).state ≠ .absent ∧ full.time.config.segmentOf 7 = some 1 ∧ full.time.config.segments.length = 2 :=
  ⟨takesOf (by decide) rfl, takesOf (by decide) rfl, by decide⟩

/-- A report that finds the bikes of a DOCKED and of a HELD dock gone; a journal with room, and one without. -/
theorem witness_CensusCorrectsListedDocks_missing :
    full.takes .census .rail (frame ([0, 2, 1, 5] ++ natBytes 3 77 ++ [2, 0] ++ natBytes 3 0)) readCensus
        ⟨none, [⟨0, true, false, some 77⟩, ⟨1, false, false, none⟩]⟩
      ∧ (full.dock 0).state = .docked (bike 11) ∧ (full.dock 1).state = .held (bike 12) ⟨2, 1, .terminal⟩
      ∧ full.journal.nextSeq + 2 ≤ 4294966272 ∧ 2 ≤ full.freeSlots ∧ (slotless full).freeSlots = 0 :=
  ⟨takesOf (by decide) rfl, by decide⟩

theorem witness_DockRestoreReturnsDock :
    full.takes .dockRestore .service (frame [1]) readDock 0 ∧ full.takes .dockRestore .uplink (frame [6]) readDock 5
      ∧ (∀ b k, (full.dock 0).state ≠ .outOfService b k)
      ∧ (full.dock 5).state = .outOfService (some (bike 15)) .sensor :=
  ⟨takesOf (by decide) rfl, takesOf (by decide) rfl, (fun _ _ h => nomatch h), by decide⟩

theorem witness_HoldEvents :
    (holding base).held = true ∧ base.held = false ∧ ((spoiledAt .rail base).port .rail).transfer = .spoiled
      ∧ (base.port .rail).transfer ≠ .spoiled := by decide

theorem witness_WarmResetKeepsRecords :
    (holding full).held = true ∧ (holding full).time.retention = true ∧ base.held = false
      ∧ ({ holding full with time := { (holding full).time with retention := false } } : State).time.retention = false := by
  decide

theorem witness_ColdResetAndFactoryClear :
    full.takes .factoryClear .uplink (frame []) readEmpty () ∧ base.held = false
      ∧ (after (holding full) .retentionLoss).held = true ∧ (after (holding full) .retentionLoss).time.retention = false :=
  ⟨takesOf (by decide) rfl, by decide⟩

/-- A step from a state with each invariant. -/
theorem witness_StepKeeps :
    step { full with pending := [.tick []] } = .next (after full (.tick [])) ∧ full.journal.consecutive
      ∧ full.journal.modeRight ∧ full.journal.chargesBounded ∧ full.cardsOrdered ∧ full.balancesInRange ∧ full.countsAgree
      ∧ full.railBounded ∧ full.docksPlaced ∧ full.rides.bounded :=
  ⟨rfl, ⟨rfl, rfl⟩, rfl, by
    intro r hr
    rw [show full.journal.records = [topupRecord] from rfl] at hr
    rw [List.mem_singleton.1 hr]
    trivial, ⟨by decide, by decide⟩, by unfold State.balancesInRange; decide, by unfold State.countsAgree; decide,
    by unfold State.railBounded; decide, by unfold State.docksPlaced; decide, by unfold Rides.bounded; decide⟩

/-- The thresholds of the journal modes (R136). -/
theorem test_mode_thresholds :
    [0, 128, 129, 256, 257, 1024].map modeOfFree = [.reserve, .reserve, .tight, .tight, .normal, .normal] := by decide

theorem witness_StepKeeps_faults : full.faultsOrdered := by
  unfold State.faultsOrdered
  decide

theorem witness_StepKeeps_lines : full.linesRight := by
  intro p
  cases p <;> rfl

/-- The linked releases and holds of the station: two docks, two cards. -/
theorem witness_StepKeeps_custody : full.custody := by
  refine ⟨⟨by decide, by decide⟩, by unfold State.docksPlaced; decide, ?_, ?_, by decide⟩
  · intro d n
    have h : ∀ d : DockNo, (full.dock d).state.releaseCard? = if d = 2 then some 3 else none := by decide
    have hc : full.cards = [{ card 1 with refCount := 1 }, { card 2 with holdDock := some 1 },
      { card 3 with inFlight := some 2 }, { card 4 with provisional := true, balance := 0 }] := rfl
    rw [h, hc]
    by_cases e : d = 2
    · subst e; simp [card, eq_comm]
    · simp [card, e, eq_comm]
  · intro d n
    have h : ∀ d : DockNo, (full.dock d).state.holdCard? = if d = 1 then some 2 else none := by decide
    have hc : full.cards = [{ card 1 with refCount := 1 }, { card 2 with holdDock := some 1 },
      { card 3 with inFlight := some 2 }, { card 4 with provisional := true, balance := 0 }] := rfl
    rw [h, hc]
    by_cases e : d = 1
    · subst e; simp [card, eq_comm]
    · simp [card, e, eq_comm]

theorem witness_StepKeeps_heldSound : full.heldSound := full_heldSound

/-- A COLLECT and a DELIVER that are open, each in its segment, and an ENDED job. -/
theorem witness_StepKeeps_jobsSound : full.jobsSound := by
  have numbers : ∀ d : DockNo,
      (full.dock d).state.jobNumber? = if d = 3 then some 1 else if d = 4 then some 2 else none := by decide
  have claims : ∀ k : Fin 8, full.vans.claims[k] = if k = 0 then some 1 else if k = 1 then some 2 else none := by decide
  have jobs : ∀ i j, full.job i = some j →
      (i = 0 ∧ j = job 1 .collect .open 3) ∨ (i = 1 ∧ j = job 2 .deliver .filling 4)
        ∨ (i = 2 ∧ j = { job 3 .deliver .ended 6 with marked := [], window := none }) := by
    have h : ∀ i : SlotNo, full.job i = if i = 0 then some (job 1 .collect .open 3) else
        if i = 1 then some (job 2 .deliver .filling 4) else
        if i = 2 then some { job 3 .deliver .ended 6 with marked := [], window := none } else none := by decide
    intro i j e
    rw [h] at e
    split at e
    · exact .inl ⟨‹_›, (Option.some.inj e).symm⟩
    split at e
    · exact .inr (.inl ⟨‹_›, (Option.some.inj e).symm⟩)
    split at e
    · exact .inr (.inr ⟨‹_›, (Option.some.inj e).symm⟩)
    · exact nomatch e
  have one : full.job 0 = some (job 1 .collect .open 3) := by decide
  have two : full.job 1 = some (job 2 .deliver .filling 4) := by decide
  have first : (job 1 .collect .open 3).openDocks = [3] := by decide
  have second : (job 2 .deliver .filling 4).openDocks = [4] := by decide
  refine ⟨⟨by decide, by decide⟩, by decide, by decide, ?_, ?_, ?_, ?_, ?_⟩
  · intro i k a b ha hb e
    rcases jobs i a ha with ⟨rfl, rfl⟩ | ⟨rfl, rfl⟩ | ⟨rfl, rfl⟩ <;>
      rcases jobs k b hb with ⟨rfl, rfl⟩ | ⟨rfl, rfl⟩ | ⟨rfl, rfl⟩ <;> first | rfl | exact absurd e (by decide)
  · intro i j h
    rcases jobs i j h with ⟨rfl, rfl⟩ | ⟨rfl, rfl⟩ | ⟨rfl, rfl⟩ <;> unfold State.jobSound <;> decide
  · intro d n
    rw [numbers]
    constructor
    · intro h
      split at h
      · subst d; exact ⟨0, _, one, Option.some.inj h, by decide⟩
      split at h
      · subst d; exact ⟨1, _, two, Option.some.inj h, by decide⟩
      · exact nomatch h
    · rintro ⟨i, j, h, rfl, m⟩
      rcases jobs i j h with ⟨rfl, rfl⟩ | ⟨rfl, rfl⟩ | ⟨rfl, rfl⟩
      · rw [List.mem_singleton.1 (first ▸ m : d ∈ [(3 : DockNo)])]; rfl
      · rw [List.mem_singleton.1 (second ▸ m : d ∈ [(4 : DockNo)])]; rfl
      · simp [JobRecord.openDocks] at m
  · intro i j d h m
    rcases jobs i j h with ⟨rfl, rfl⟩ | ⟨rfl, rfl⟩ | ⟨rfl, rfl⟩
    · rw [List.mem_singleton.1 (first ▸ m : d ∈ [(3 : DockNo)])]; decide
    · rw [List.mem_singleton.1 (second ▸ m : d ∈ [(4 : DockNo)])]; decide
    · simp [JobRecord.openDocks] at m
  · intro k n
    rw [claims]
    constructor
    · intro h
      split at h
      · subst k; exact ⟨0, _, one, Option.some.inj h, by decide, by decide⟩
      split at h
      · subst k; exact ⟨1, _, two, Option.some.inj h, by decide, by decide⟩
      · exact nomatch h
    · rintro ⟨i, j, h, rfl, o, m⟩
      rcases jobs i j h with ⟨rfl, rfl⟩ | ⟨rfl, rfl⟩ | ⟨rfl, rfl⟩
      · have : k = 0 := by revert m; revert k; decide
        subst this; rfl
      · have : k = 1 := by revert m; revert k; decide
        subst this; rfl
      · exact absurd rfl o

theorem witness_StepKeeps_reservations :
    full.reservationsRight ∧ full.journal.withinRing ∧ full.journal.modeRight := by
  refine ⟨?_, ?_, rfl⟩
  · unfold State.reservationsRight; decide
  · unfold Journal.withinRing; decide

end Sys2Proof.Tests
end

section
/-! PROOFS. Every step keeps the bounds of the ride records (R24, R43): what each operation makes of the settled-ride list,
the ride outcome lists and the next ride number. -/

namespace Sys2Proof.Machine.RideLaws

open Sys2Proof.Machine.Laws

/-! ## The lists -/

theorem pushOutcome_length_le (o : RideOutcome) {l : List RideOutcome} (h : l.length ≤ Config.outcomePlaces) :
    (pushOutcome o l).length ≤ Config.outcomePlaces := by
  have places : Config.outcomePlaces = 8 := rfl
  unfold pushOutcome
  split <;> simp only [List.length_append, List.length_drop, List.length_singleton] <;> omega

theorem pushSettled_length_le (pair : Nat × Nat) {l : List (Nat × Nat)} (h : l.length ≤ Config.settledPlaces) :
    (pushSettled pair l).length ≤ Config.settledPlaces := by
  have places : Config.settledPlaces = 64 := rfl
  unfold pushSettled
  split <;> simp only [List.length_append, List.length_drop, List.length_singleton] <;> omega

/-- A pair that is not settled yet enters the list once; what is dropped is at the other end (R43). -/
theorem pushSettled_nodup {pair : Nat × Nat} {l : List (Nat × Nat)} (hl : l.Nodup) (hp : pair ∉ l) :
    (pushSettled pair l).Nodup := by
  have push : ∀ m : List (Nat × Nat), m.Sublist l → (m ++ [pair]).Nodup := fun m hm =>
    List.nodup_append.2 ⟨hl.sublist hm, List.nodup_singleton _, fun x hx y hy e =>
      hp (hm.subset (by rwa [← List.mem_singleton.1 hy, ← e]))⟩
  unfold pushSettled
  split
  · exact push _ (List.drop_sublist ..)
  · exact push _ (List.Sublist.refl _)

theorem nextRideAfter_range (n : Nat) : 1 ≤ nextRideAfter n ∧ nextRideAfter n ≤ 65535 := by
  unfold nextRideAfter
  split <;> omega

theorem clearOutcomes_bounded {r : Rides} (h : r.bounded) (p : Port) (gone : NoticeSet) :
    (r.clearOutcomes p gone).bounded := by
  obtain ⟨nodup, settled, terminal, uplink, ride⟩ := h
  cases p
  case terminal => exact ⟨nodup, settled, (List.length_filter_le ..).trans terminal, uplink, ride⟩
  case uplink => exact ⟨nodup, settled, terminal, (List.length_filter_le ..).trans uplink, ride⟩
  case rail => exact ⟨nodup, settled, terminal, uplink, ride⟩
  case service => exact ⟨nodup, settled, terminal, uplink, ride⟩

theorem settled_bounded {r : Rides} (h : r.bounded) {pair : Nat × Nat} (hp : pair ∉ r.settled) :
    ({ r with settled := pushSettled pair r.settled } : Rides).bounded := by
  obtain ⟨nodup, settled, outcomes⟩ := h
  exact ⟨pushSettled_nodup nodup hp, pushSettled_length_le _ settled, outcomes⟩

/-! ## Outcomes, and the ends of releases and holds -/

theorem outcome_bounded {s : State} (h : s.rides.bounded) (p : RiderPort) (kind : OutcomeKind) (card : Nat)
    (d : DockNo) : (s.outcome p kind card d).rides.bounded := by
  obtain ⟨nodup, settled, terminal, uplink, ride⟩ := h
  cases p
  case terminal => exact ⟨nodup, settled, pushOutcome_length_le _ terminal, uplink, ride⟩
  case uplink => exact ⟨nodup, settled, terminal, pushOutcome_length_le _ uplink, ride⟩

theorem endLapsed_bounded {s : State} (h : s.rides.bounded) (d : DockNo) (r : ReleaseRecord) (reason : LapseReason) :
    (s.endLapsed d r reason).rides.bounded := outcome_bounded (by simpa using h) ..

theorem loseHold_bounded {s : State} (h : s.rides.bounded) (d : DockNo) (hold : HoldRecord) (cause : LossCause) :
    (s.loseHold d hold cause).rides.bounded := outcome_bounded (by simpa using h) ..

theorem lapseRelease_bounded {s : State} (h : s.rides.bounded) (d : DockNo) (b : DockedBike) (r : ReleaseRecord)
    (reason : LapseReason) : (s.lapseRelease d b r reason).rides.bounded := endLapsed_bounded (by simpa using h) ..

theorem expireHold_bounded {s : State} (h : s.rides.bounded) (d : DockNo) (b : DockedBike) (hold : HoldRecord) :
    (s.expireHold d b hold).rides.bounded := outcome_bounded (by simpa using h) ..

theorem completeRelease_bounded {s : State} (h : s.rides.bounded) (d : DockNo) (b : DockedBike) (r : ReleaseRecord) :
    (s.completeRelease d b r).rides.bounded := outcome_bounded (by simpa using h) ..

theorem tickDock_bounded {s : State} (h : s.rides.bounded) (d : DockNo) : (s.tickDock d).rides.bounded := by
  unfold State.tickDock
  split
  · split
    · exact expireHold_bounded h ..
    · simpa using h
  · split
    · exact lapseRelease_bounded h ..
    · simpa using h
  all_goals exact h

theorem tickDocks_bounded {s : State} (h : s.rides.bounded) : s.tickDocks.rides.bounded :=
  foldl_invariant _ (fun u => u.rides.bounded) (fun _ d hu => tickDock_bounded hu d) _ _ h

theorem quarantineDock_bounded {s : State} (h : s.rides.bounded) (bike : Nat) (d : DockNo) :
    (s.quarantineDock bike d).rides.bounded := by
  unfold State.quarantineDock
  split
  · split
    · exact loseHold_bounded (by simpa using h) ..
    · exact h
  · split
    · exact lapseRelease_bounded h ..
    · exact h
  all_goals exact h

theorem quarantineDocks_bounded {s : State} (h : s.rides.bounded) (bike : Nat) :
    (s.quarantineDocks bike).rides.bounded :=
  foldl_invariant _ (fun u => u.rides.bounded) (fun _ d hu => quarantineDock_bounded hu bike d) _ _ h

/-! ## Reports -/

theorem takeReport_bounded {s : State} (h : s.rides.bounded) (r : Report) (p : Place) :
    (s.takeReport r p).rides.bounded := by
  unfold State.takeReport
  dsimp only
  rw [appendIfRoom_rides]
  split
  · refine quarantineDocks_bounded ?_ _
    simpa using h
  · exact h

theorem internalReport_bounded {s : State} (h : s.rides.bounded) (bike : Nat) (d : DockNo) (category : Category) :
    (s.internalReport bike d category).rides.bounded := by
  unfold State.internalReport
  dsimp only
  split
  · exact takeReport_bounded h ..
  · simpa using h

@[simp] theorem recordMissing_rides (s : State) (bike : Nat) (d : DockNo) :
    (s.recordMissing bike d).rides = s.rides := appendIfRoom_rides ..

/-! ## Van jobs write no ride record -/

@[simp] theorem settleJob_rides (s : State) (slot : SlotNo) (j : JobRecord) : (s.settleJob slot j).rides = s.rides := by
  rcases settleJob_cases s slot j with ⟨_, e⟩ | ⟨_, e⟩ <;> rw [e] <;> simp

/-- Work on a numbered job keeps the ride records where the work itself keeps them. -/
theorem withJob_rides (s : State) (number : Nat) {work : SlotNo → JobRecord → State → State}
    (h : ∀ slot j, (work slot j s).rides = s.rides) : (s.withJob number work).rides = s.rides := by
  unfold State.withJob
  split
  · rfl
  · split
    · exact h ..
    · rfl

@[simp] theorem countRemoval_rides (s : State) (number : Nat) (d : DockNo) (b : DockedBike) :
    (s.countRemoval number d b).rides = s.rides := withJob_rides _ _ (fun _ _ => settleJob_rides ..)

@[simp] theorem faultItem_rides (s : State) (number : Nat) (d : DockNo) : (s.faultItem number d).rides = s.rides :=
  withJob_rides _ _ (fun _ _ => settleJob_rides ..)

@[simp] theorem countDelivery_rides (s : State) (number : Nat) (d : DockNo) (bike : Nat) :
    (s.countDelivery number d bike).rides = s.rides := withJob_rides _ _ (fun _ _ => settleJob_rides ..)

@[simp] theorem remark_rides (s : State) (number : Nat) (d : DockNo) : (s.remark number d).rides = s.rides := by
  refine withJob_rides _ _ (fun slot j => ?_)
  dsimp only
  split <;> simp

@[simp] theorem returnDock_rides (s : State) (d : DockNo) : (s.returnDock d).rides = s.rides := by
  unfold State.returnDock
  split <;> simp

@[simp] theorem countStray_rides (s : State) (d : DockNo) (bike : Nat) : (s.countStray d bike).rides = s.rides := by
  unfold State.countStray
  split
  · rfl
  · split
    · rfl
    · dsimp only
      split <;> simp

@[simp] theorem cutJob_rides (s : State) (slot : SlotNo) (j : JobRecord) (add : EndConditions → EndConditions) :
    (s.cutJob slot j add).rides = s.rides := by
  have returned := foldl_keeps State.returnDock State.rides (fun u d => returnDock_rides u d) j.openDocks s
  unfold State.cutJob
  dsimp only
  rw [endJob_rides]
  split
  · rw [giveUp_rides, returned]
  · exact returned

theorem tickJob_rides (s : State) (slot : SlotNo) : (s.tickJob slot).rides = s.rides := by
  unfold State.tickJob
  split
  · rfl
  · split
    · rfl
    · split
      · exact cutJob_rides ..
      · simp

theorem tickJobs_rides (s : State) : s.tickJobs.rides = s.rides :=
  foldl_keeps State.tickJob State.rides tickJob_rides _ s

theorem markDock_rides (number : Nat) (s : State) (d : DockNo) : (s.markDock number d).rides = s.rides := by
  unfold State.markDock
  split <;> simp

theorem startWalk_rides (s : State) (slot : SlotNo) (req : StartReq) (j : JobRecord) :
    (s.startWalk slot req j).rides = s.rides := by
  have marked : ∀ (number : Nat) (l : List DockNo), (l.foldl (State.markDock number) s).rides = s.rides :=
    fun number l => foldl_keeps (State.markDock number) State.rides (markDock_rides number) l s
  unfold State.startWalk
  dsimp only
  split
  · exact endJob_rides ..
  all_goals
    split
    · exact endJob_rides ..
    · split <;> simp [marked]

theorem startJob_rides (s : State) (slot : SlotNo) (origin : CrewPort) (req : StartReq) :
    (s.startJob slot origin req).rides = s.rides := startWalk_rides ..

theorem resetJob_rides (s : State) (slot : SlotNo) : (s.resetJob slot).rides = s.rides := by
  unfold State.resetJob
  split
  · rfl
  · split
    · exact appendReserved_rides ..
    · rfl

/-! ## Docks -/

theorem dockFault_bounded {s : State} (h : s.rides.bounded) (kind : DockFaultKind) (d : DockNo) :
    (s.dockFault kind d).rides.bounded := by
  unfold State.dockFault
  dsimp only
  split
  case h_4 => exact loseHold_bounded (by simpa using h) ..
  case h_5 => exact endLapsed_bounded (by simpa using h) ..
  all_goals simpa using h

theorem forceRemoval_bounded {s : State} (h : s.rides.bounded) (d : DockNo) (b : DockedBike)
    (hold : Option HoldRecord) : (s.forceRemoval d b hold).rides.bounded := by
  unfold State.forceRemoval
  refine internalReport_bounded ?_ ..
  cases hold
  case none => simpa [State.dropOpening] using h
  case some hold => exact loseHold_bounded (by simpa [State.dropOpening] using h) ..

theorem censusItem_bounded {s : State} (h : s.rides.bounded) (i : CensusItem) : (s.censusItem i).rides.bounded := by
  unfold State.censusItem
  dsimp only
  split
  · exact h
  · split
    · split
      case h_1 =>
        refine loseHold_bounded ?_ ..
        split <;> simpa using h
      all_goals
        split <;> simpa using h
    · simpa using h

theorem markFetched_rides (s : State) (d : DockNo) : (s.markFetched d).rides = s.rides := by
  unfold State.markFetched
  split <;> simp

theorem fetch_rides (s : State) (c : Command) : (s.fetch c).rides = s.rides := by
  cases c
  case unlock d token => exact markFetched_rides ..
  case batchUnlock number docks => exact withJob_rides _ _ (fun _ _ => rfl)
  case relock docks => rfl
  case readToken d => rfl

/-! ## Returns -/

/-- A settlement adds its token's pair where the list does not hold it, and otherwise writes no ride record (R41). -/
theorem settle_bounded {s : State} (h : s.rides.bounded) (t : Token) (bike : Nat) (d : DockNo) (returnTime : Nat) :
    (s.settle t bike d returnTime).station.rides.bounded := by
  unfold State.settle
  dsimp only
  split
  · exact h
  · rename_i fresh
    have pushed := settled_bounded h (pair := (t.origin, t.ride)) (by simpa using fresh)
    split
    · split
      · unfold State.chargeRide
        dsimp only
        split
        all_goals simpa using pushed
      · simpa using h
    · simpa using h

theorem settleReturn_bounded {s : State} (h : s.rides.bounded) (t : Token) (d : DockNo) (bike : Nat) :
    (s.settleReturn t d bike).station.rides.bounded := by
  have settled := settle_bounded (s := s.dockBike d bike) (by simpa [State.dockBike] using h) t bike d s.time.clock
  unfold State.settleReturn
  dsimp only
  split
  case h_1 => simpa [State.setToken] using settled
  all_goals exact settled

/-! ## The end of an event -/

theorem takeTick_bounded {s : State} (h : s.rides.bounded) (holder : TickHolder) : (s.takeTick holder).rides.bounded := by
  unfold State.takeTick
  split
  · rw [closeEvent_rides]
    cases holder
    case docks => exact tickDocks_bounded h
    case vans => exact (tickJobs_rides _).symm ▸ h
    case fares =>
      show (State.switchTariff _).rides.bounded
      unfold State.switchTariff
      split <;> exact h
    case stale =>
      show (State.tickStale _).rides.bounded
      unfold State.tickStale State.loseLink
      dsimp only
      split
      · split <;> exact h
      · exact h
  · exact h

theorem finishFrame_rides (p : Port) (first : Byte) (bytes : List Byte) (restarts : Bool) (x : Handled) (s : State) :
    (finishFrame p first bytes restarts x s).rides = x.station.rides := by
  unfold finishFrame
  dsimp only
  split <;> simp

theorem takeFrame_bounded {s : State} (h : s.rides.bounded) (p : Port) (first : Byte) (bytes : List Byte)
    (restarts : Bool) {judge : State → Handled}
    (hj : ∀ u : State, u.rides.bounded → (judge u).station.rides.bounded) :
    (takeFrame p first bytes restarts judge s).rides.bounded := by
  unfold takeFrame
  split
  · exact h
  · dsimp only
    split
    · exact h
    · rw [finishFrame_rides]
      exact hj _ h

/-- A request keeps the ride records' bounds where its owner does. -/
theorem serve_bounded {α : Type} {s : State} (h : s.rides.bounded) {kind : ReqKind} {p : Port} {bytes : List Byte}
    {read : List Byte → Except RefusalReason α} {owner : α → State → Handled}
    (ho : ∀ req (u : State), u.rides.bounded → (owner req u).station.rides.bounded) :
    (serve kind p bytes read owner s).rides.bounded := by
  refine takeFrame_bounded h _ _ _ _ (fun u hu => ?_)
  unfold orRefuse
  split
  · exact ho _ u hu
  · exact hu

/-- A request whose owner writes no ride record keeps their bounds. -/
theorem serve_bounded_of_same {α : Type} {s : State} (h : s.rides.bounded) {kind : ReqKind} {p : Port}
    {bytes : List Byte} {read : List Byte → Except RefusalReason α} {owner : α → State → Handled}
    (ho : ∀ req u, (owner req u).station.rides = u.rides) : (serve kind p bytes read owner s).rides.bounded :=
  serve_bounded h (fun req u hu => (ho req u).symm ▸ hu)

end Sys2Proof.Machine.RideLaws
end

section
/-! PROOFS. The owners' work and the events outside requests, and that every step keeps the bounds of the ride records. -/

namespace Sys2Proof.Machine.RideLaws

open Sys2Proof.Machine.Laws

@[simp] theorem accept_station (body : AcceptBody) (u : State) : (accept body u).station = u := rfl

@[simp] theorem refuse_station (reason : RefusalReason) (u : State) : (refuse reason u).station = u := rfl

/-! ## The owners that write ride records -/

theorem ownRelease_bounded (p : Port) (req : RideReq) {u : State} (h : u.rides.bounded) :
    (ownRelease p req u).station.rides.bounded := by
  unfold ownRelease orRefuse
  split
  · obtain ⟨nodup, settled, terminal, uplink, _⟩ := h
    exact ⟨nodup, settled, terminal, uplink, nextRideAfter_range _⟩
  · exact h

theorem ownRemoved_bounded (req : RemovedReq) {u : State} (h : u.rides.bounded) :
    (ownRemoved req u).station.rides.bounded := by
  unfold ownRemoved
  dsimp only
  split
  case h_5 => simpa [State.dropOpening] using h
  case h_6 => exact forceRemoval_bounded h ..
  case h_7 => exact forceRemoval_bounded h ..
  case h_8 => exact completeRelease_bounded h ..
  case h_9 => simpa using h
  all_goals exact h

theorem reportDockFault_bounded (kind : DockFaultKind) (d : DockNo) {u : State} (h : u.rides.bounded) :
    (reportDockFault kind d u).station.rides.bounded := by
  unfold reportDockFault
  split
  · exact h
  · exact dockFault_bounded h ..

theorem ownCensus_bounded (req : CensusReq) {u : State} (h : u.rides.bounded) :
    (ownCensus req u).station.rides.bounded := by
  unfold ownCensus
  split
  · exact foldl_invariant _ (fun v => v.rides.bounded) (fun _ i hv => censusItem_bounded hv i) _ _ h
  · exact h

theorem ownInserted_bounded (req : ReturnReq) {u : State} (h : u.rides.bounded) :
    (ownInserted req u).station.rides.bounded := by
  unfold ownInserted
  dsimp only
  split
  case h_1 =>
    split
    · simpa [State.dockBike] using h
    · exact settleReturn_bounded h ..
  case h_2 =>
    split
    · simpa [State.dockBike] using h
    · simpa using settleReturn_bounded h ..
  case h_3 => exact dockFault_bounded h ..
  all_goals exact h

theorem ownTokenReport_bounded (req : ReturnReq) {u : State} (h : u.rides.bounded) :
    (ownTokenReport req u).station.rides.bounded := by
  have waited : u.endWait.rides.bounded := h
  unfold ownTokenReport
  dsimp only
  split
  · split
    · exact h
    · split
      · split
        · simpa [State.clearToken] using settle_bounded waited ..
        · exact settle_bounded waited ..
        · exact settle_bounded waited ..
      · refine internalReport_bounded ?_ ..
        simpa [State.clearToken] using waited
  · exact h

theorem ownReportFault_bounded (p : Port) (req : ReportReq) {u : State} (h : u.rides.bounded) :
    (ownReportFault p req u).station.rides.bounded := by
  unfold ownReportFault orRefuse
  split
  · split
    · dsimp only
      split
      · exact h
      · split
        · exact h
        · exact takeReport_bounded h ..
    · exact h
  · exact h

/-! ## The owners that write none -/

theorem ownHold_rides (p : Port) (req : RideReq) (u : State) : (ownHold p req u).station.rides = u.rides := by
  unfold ownHold orRefuse
  split <;> simp [State.grantHold]

theorem ownHoldCancel_rides (p : Port) (card : Nat) (u : State) :
    (ownHoldCancel p card u).station.rides = u.rides := by
  unfold ownHoldCancel
  split
  · rfl
  · split
    · rfl
    · split
      · split <;> simp [refuse]
      all_goals rfl

theorem ownQuote_rides (req : QuoteReq) (u : State) : (ownQuote req u).station.rides = u.rides := by
  unfold ownQuote
  split
  · split
    · rfl
    · split <;> rfl
  · rfl

theorem ownTopup_rides (req : TopupReq) (u : State) : (ownTopup req u).station.rides = u.rides := by
  unfold ownTopup
  split
  · rfl
  · split
    · rfl
    · split_ifs <;> simp [refuse]

theorem ownCardStatus_rides (query : Option Nat) (u : State) : (ownCardStatus query u).station.rides = u.rides := by
  unfold ownCardStatus
  split
  · split <;> rfl
  · rfl

theorem ownClearFault_rides (p : Port) (bike : Nat) (u : State) :
    (ownClearFault p bike u).station.rides = u.rides := by
  unfold ownClearFault
  split <;> simp [refuse]

theorem ownFaultStatus_rides (query : FaultQuery) (u : State) : (ownFaultStatus query u).station.rides = u.rides := by
  unfold ownFaultStatus
  split
  · split <;> rfl
  · rfl

theorem ownDockRestore_rides (d : DockNo) (u : State) : (ownDockRestore d u).station.rides = u.rides := by
  unfold ownDockRestore
  split <;> simp [refuse]

theorem ownDockStatus_rides (query : Option DockNo) (u : State) : (ownDockStatus query u).station.rides = u.rides := by
  unfold ownDockStatus
  split <;> rfl

theorem ownFetchCommand_rides (x : Unit) (u : State) : (ownFetchCommand x u).station.rides = u.rides := by
  unfold ownFetchCommand
  split
  · rfl
  · exact fetch_rides ..

theorem ownStartJob_rides (p : Port) (req : StartReq) (u : State) : (ownStartJob p req u).station.rides = u.rides := by
  unfold ownStartJob orRefuse
  split
  · dsimp only
    split
    · exact startJob_rides ..
    · rfl
  · rfl

theorem ownJobStatus_rides (p : Port) (number : Option Nat) (u : State) :
    (ownJobStatus p number u).station.rides = u.rides := by
  unfold ownJobStatus orRefuse
  split
  · split <;> rfl
  · rfl

theorem ownRetireJob_rides (p : Port) (number : Nat) (u : State) :
    (ownRetireJob p number u).station.rides = u.rides := by
  unfold ownRetireJob orRefuse
  split
  · dsimp only
    split <;> rfl
  · rfl

theorem ownAbortJob_rides (p : Port) (number : Nat) (u : State) :
    (ownAbortJob p number u).station.rides = u.rides := by
  unfold ownAbortJob orRefuse
  split
  · dsimp only
    split
    · rw [accept_station, cutJob_rides]
    · rfl
  · rfl

theorem ownConfigure_rides (req : ConfigureReq) (u : State) : (ownConfigure req u).station.rides = u.rides := by
  unfold ownConfigure State.configure
  split
  · rfl
  · dsimp only [accept]
    split_ifs <;> rfl

theorem ownSetMode_rides (mode : StationMode) (u : State) : (ownSetMode mode u).station.rides = u.rides := by
  unfold ownSetMode
  split <;> rfl

theorem ownCardLoad_rides (req : LoadReq) (u : State) : (ownCardLoad req u).station.rides = u.rides := by
  unfold ownCardLoad
  split_ifs
  · rfl
  · rfl
  · split
    · rfl
    · split <;> rfl

theorem ownCardDrop_rides (card : Nat) (u : State) : (ownCardDrop card u).station.rides = u.rides := by
  unfold ownCardDrop
  split
  · rfl
  · split <;> rfl

theorem ownTariffStage_rides (req : StagedSet) (u : State) : (ownTariffStage req u).station.rides = u.rides := by
  unfold ownTariffStage
  split <;> rfl

theorem ownJournalRead_rides (req : ReadReq) (u : State) : (ownJournalRead req u).station.rides = u.rides := by
  unfold ownJournalRead
  split <;> rfl

theorem ownJournalRelease_rides (through : Nat) (u : State) :
    (ownJournalRelease through u).station.rides = u.rides := by
  unfold ownJournalRelease
  split_ifs <;> rfl

/-! ## The events outside requests -/

theorem takeTicks_bounded {s : State} (h : s.rides.bounded) (l : List TickHolder) :
    (l.foldl State.takeTick s).rides.bounded :=
  foldl_invariant _ (fun u => u.rides.bounded) (fun _ x hu => takeTick_bounded hu x) _ _ h

theorem countSecond_rides (s : State) : s.countSecond.rides = s.rides := by
  unfold State.countSecond
  split_ifs <;> rfl

theorem loseLink_rides (s : State) : s.loseLink.rides = s.rides := by
  unfold State.loseLink
  split <;> rfl

theorem dockExpiry_bounded {s : State} (h : s.rides.bounded) (d : DockNo) : (s.dockExpiry d).rides.bounded := by
  unfold State.dockExpiry
  split
  · exact takeTick_bounded h _
  · rw [closeEvent_rides]
    exact tickDock_bounded h d

/-- A warm reset empties the outcome lists and keeps the settled-ride list and the next ride number (R47). -/
theorem warmRecords_bounded {s : State} (h : s.rides.bounded) : s.warmRecords.rides.bounded := by
  have kept : ∀ u : State, (allSlots.foldl State.resetJob u).rides = u.rides :=
    foldl_keeps State.resetJob State.rides resetJob_rides allSlots
  obtain ⟨nodup, settled, _, _, ride⟩ := h
  unfold State.warmRecords
  dsimp only
  rw [kept, unreserve_rides]
  exact ⟨nodup, settled, Nat.zero_le _, Nat.zero_le _, ride⟩

theorem reset_bounded : State.reset.rides.bounded :=
  ⟨List.nodup_nil, Nat.zero_le _, Nat.zero_le _, Nat.zero_le _, by decide, by decide⟩

/-! ## Every step -/

/-- Where a command answers a next state, that state keeps the bounds of the ride records. -/
def NextBounded (o : Host.Outcome State Fault Refusal) : Prop := ∀ t, o = .next t → t.rides.bounded

theorem NextBounded.next {u : State} (h : u.rides.bounded) : NextBounded (.next u) :=
  fun _ e => Host.Outcome.next.inj e ▸ h

theorem NextBounded.refused (r : Refusal) : NextBounded (.refused r) := fun _ e => nomatch e

theorem NextBounded.ite {c : Prop} [Decidable c] {a b : Host.Outcome State Fault Refusal} (ha : NextBounded a)
    (hb : NextBounded b) : NextBounded (if c then a else b) := by
  split
  · exact ha
  · exact hb

theorem execAnswerRead_bounded {s : State} (h : s.rides.bounded) (p : Port) (clocked : Nat) :
    NextBounded (execAnswerRead p clocked s) := by
  refine .ite (.next h) ?_
  split <;> exact .next h

theorem execTick_bounded {s : State} (h : s.rides.bounded) (takers : List TickHolder) :
    NextBounded (execTick takers s) := by
  refine .ite (.next ((countSecond_rides s).symm ▸ h)) (.next (takeTicks_bounded ?_ takers))
  rw [closeEvent_rides]
  show (State.countSecond _).rides.bounded
  rw [countSecond_rides]
  exact takeTicks_bounded h _

theorem execVanWindowExpiry_bounded {s : State} (h : s.rides.bounded) (slot : SlotNo) :
    NextBounded (execVanWindowExpiry slot s) := by
  refine .ite (.next ?_) (.next h)
  split
  · exact takeTick_bounded h _
  · rw [closeEvent_rides, tickJob_rides]
    exact h

theorem execStaleTimerExpiry_bounded {s : State} (h : s.rides.bounded) : NextBounded (execStaleTimerExpiry s) := by
  refine .ite (.next ?_) (.next h)
  split
  · rw [closeEvent_rides, loseLink_rides]
    exact h
  · exact takeTick_bounded h _

theorem execResetHold_bounded {s : State} (h : s.rides.bounded) (cause : HoldCause) (underWay : List Port) :
    NextBounded (execResetHold cause underWay s) := by
  refine .next ?_
  show (underWay.foldl State.spoil _).rides.bounded
  rw [foldl_keeps State.spoil State.rides (fun _ _ => rfl)]
  exact h

/-- Every command keeps the bounds of the ride records. -/
theorem exec_bounded (i : Instr) {s : State} (h : s.rides.bounded) : NextBounded (exec i s) := by
  cases i with
  | release p bytes => exact .next (serve_bounded h (fun req _ => ownRelease_bounded p req))
  | hold p bytes => exact .next (serve_bounded_of_same h (ownHold_rides p))
  | holdCancel p bytes => exact .next (serve_bounded_of_same h (ownHoldCancel_rides p))
  | quote p bytes => exact .next (serve_bounded_of_same h ownQuote_rides)
  | topup p bytes => exact .next (serve_bounded_of_same h ownTopup_rides)
  | cardStatus p bytes => exact .next (serve_bounded_of_same h ownCardStatus_rides)
  | reportFault p bytes => exact .next (serve_bounded h (fun req _ => ownReportFault_bounded p req))
  | clearFault p bytes => exact .next (serve_bounded_of_same h (ownClearFault_rides p))
  | dockRestore p bytes => exact .next (serve_bounded_of_same h ownDockRestore_rides)
  | faultStatus p bytes => exact .next (serve_bounded_of_same h ownFaultStatus_rides)
  | fetchCommand p bytes => exact .next (serve_bounded_of_same h ownFetchCommand_rides)
  | inserted p bytes => exact .next (serve_bounded h (fun req _ => ownInserted_bounded req))
  | removed p bytes => exact .next (serve_bounded h (fun req _ => ownRemoved_bounded req))
  | lockJam p bytes => exact .next (serve_bounded h (fun d _ => reportDockFault_bounded .lockJam d))
  | sensorFault p bytes =>
    exact .next (serve_bounded h (fun (req : SensorReq) _ => reportDockFault_bounded req.fault req.dock))
  | census p bytes => exact .next (serve_bounded h (fun req _ => ownCensus_bounded req))
  | tokenReport p bytes => exact .next (serve_bounded h (fun req _ => ownTokenReport_bounded req))
  | startJob p bytes => exact .next (serve_bounded_of_same h (ownStartJob_rides p))
  | jobStatus p bytes => exact .next (serve_bounded_of_same h (ownJobStatus_rides p))
  | retireJob p bytes => exact .next (serve_bounded_of_same h (ownRetireJob_rides p))
  | abortJob p bytes => exact .next (serve_bounded_of_same h (ownAbortJob_rides p))
  | configure p bytes => exact .next (serve_bounded_of_same h ownConfigure_rides)
  | clockSet p bytes => exact .next (serve_bounded_of_same h (fun _ _ => appendIfRoom_rides ..))
  | setMode p bytes => exact .next (serve_bounded_of_same h ownSetMode_rides)
  | cardLoad p bytes => exact .next (serve_bounded_of_same h ownCardLoad_rides)
  | cardDrop p bytes => exact .next (serve_bounded_of_same h ownCardDrop_rides)
  | tariffStage p bytes => exact .next (serve_bounded_of_same h ownTariffStage_rides)
  | journalRead p bytes => exact .next (serve_bounded_of_same h ownJournalRead_rides)
  | journalRelease p bytes => exact .next (serve_bounded_of_same h ownJournalRelease_rides)
  | factoryClear p bytes => exact .next (serve_bounded h (fun _ _ _ => reset_bounded))
  | dockStatus p bytes => exact .next (serve_bounded_of_same h ownDockStatus_rides)
  | stationStatus p bytes => exact .next (serve_bounded_of_same h (fun _ _ => rfl))
  | readNotices p bytes => exact .next (serve_bounded h (fun _ _ hu => clearOutcomes_bounded hu _ _))
  | setNoticeEnables p bytes => exact .next (serve_bounded_of_same h (fun _ _ => rfl))
  | unknownRequest p kind bytes =>
    exact .ite (.next (takeFrame_bounded h _ _ _ _ (fun _ hu => hu))) (.refused _)
  | answerRead p clocked => exact execAnswerRead_bounded h p clocked
  | tick takers => exact execTick_bounded h takers
  | holdExpiry d => exact .ite (.next (dockExpiry_bounded h d)) (.next h)
  | unlockWindowExpiry d => exact .ite (.next (dockExpiry_bounded h d)) (.next h)
  | vanWindowExpiry slot => exact execVanWindowExpiry_bounded h slot
  | staleTimerExpiry => exact execStaleTimerExpiry_bounded h
  | tariffSwitch => exact .ite (.next (takeTick_bounded h _)) (.next h)
  | resettlementSweep => exact .ite (.next h) (.next ((sweep_rides s).symm ▸ h))
  | resetHold cause underWay => exact execResetHold_bounded h cause underWay
  | retentionLoss => exact .ite (.next h) (.next h)
  | warmReset => exact .ite (.next (warmRecords_bounded h)) (.next h)
  | coldReset => exact .ite (.next reset_bounded) (.next h)
  | selectDuringHold p => exact .ite (.next h) (.next h)
  | spoiledTransferEnd p => exact .ite (.next h) (.next h)

/-- Settles O59: each command keeps the bounds, by what its owner or its event makes of the ride records. -/
theorem stepKeepsRides : Obligations.StepKeepsRides := by
  unfold Obligations.StepKeepsRides
  intro s t h e
  unfold step at e
  split at e
  · exact NextBounded.next h t e
  · refine exec_bounded _ ?_ t e
    exact h

end Sys2Proof.Machine.RideLaws
end

section
/-! PROOFS. A request that its port hands to its owner, by what its owner makes of it, and what the end of its event
leaves. -/

namespace Sys2Proof.Machine.RideLaws

open Sys2Proof.Machine.Laws

/-! ## Served requests -/

/-- A request that its owner refuses changes no record (R176). -/
theorem serve_refused {α : Type} {s : State} {kind : ReqKind} {p : Port} {bytes : List Byte}
    {read : List Byte → Except RefusalReason α} {req : α} (h : s.takes kind p bytes read req)
    {owner : α → State → Handled} {reason : RefusalReason}
    (ho : owner req (s.endRequest p (bytes.length + 1)) = refuse reason (s.endRequest p (bytes.length + 1))) :
    (serve kind p bytes read owner s).answered p kind.code bytes (.refuse reason none)
      ∧ (serve kind p bytes read owner s).unchangedBy s p := by
  rw [serve_takes h, ho]
  exact finish_refuse ..

/-- A request that its owner accepts, having left the station `u` with notices set. -/
theorem serve_accepted {α : Type} {s u : State} {kind : ReqKind} {p : Port} {bytes : List Byte}
    {read : List Byte → Except RefusalReason α} {req : α} (h : s.takes kind p bytes read req)
    {owner : α → State → Handled} {body : AcceptBody} (hk : (kind != .factoryClear) = true)
    (ho : owner req (s.endRequest p (bytes.length + 1)) = accept body u)
    (hu : PortsFollow u (s.endRequest p (bytes.length + 1))) :
    (serve kind p bytes read owner s).answered p kind.code bytes (.accept body)
      ∧ (serve kind p bytes read owner s).endsAs u p ∧ (serve kind p bytes read owner s).portsKept s p
      ∧ ∀ q k, u.notified q k → (serve kind p bytes read owner s).notified q k := by
  rw [serve_takes h, ho, hk]
  exact finish_accept s u p kind.code bytes body _ hu

/-! ## What the end of a request's event leaves -/

section EndsAs

variable {t u : State} {p : Port}

theorem endsAs_rides (h : t.endsAs u p) : t.rides = u.rides := (congrArg State.rides h.1 :)
theorem endsAs_fares (h : t.endsAs u p) : t.fares = u.fares := (congrArg State.fares h.1 :)
theorem endsAs_cards (h : t.endsAs u p) : t.cards = u.cards := (congrArg State.cards h.1 :)
theorem endsAs_faults (h : t.endsAs u p) : t.faults = u.faults := (congrArg State.faults h.1 :)
theorem endsAs_vans (h : t.endsAs u p) : t.vans = u.vans := (congrArg State.vans h.1 :)
theorem endsAs_time (h : t.endsAs u p) : t.time = u.clocked p := (congrArg State.time h.1 :)
theorem endsAs_records (h : t.endsAs u p) : t.journal.records = u.journal.records :=
  (congrArg (fun v => v.journal.records) h.1 :)
theorem endsAs_reserved (h : t.endsAs u p) : t.journal.reserved = u.journal.reserved :=
  (congrArg (fun v => v.journal.reserved) h.1 :)

/-- The sweep at the end of the event writes the queue and the cursor alone (R45). -/
theorem sweptFrom_rail {r : Rail} (h : r.sweptFrom u) :
    r.docks = u.rail.docks ∧ r.opens = u.rail.opens ∧ r.awaited = u.rail.awaited := by
  rcases h with ⟨_, e⟩ | ⟨d, _, e⟩ <;> rw [e] <;> exact ⟨rfl, rfl, rfl⟩

theorem endsAs_docks (h : t.endsAs u p) : t.rail.docks = u.rail.docks := (sweptFrom_rail h.2).1
theorem endsAs_awaited (h : t.endsAs u p) : t.rail.awaited = u.rail.awaited := (sweptFrom_rail h.2).2.2

theorem endsAs_dock (h : t.endsAs u p) (e : DockNo) : t.dock e = u.dock e := by
  simp only [State.dock, endsAs_docks h]

theorem endsAs_card (h : t.endsAs u p) (n : Nat) : t.card n = u.card n := card_congr (endsAs_cards h) n
theorem endsAs_fault (h : t.endsAs u p) (n : Nat) : t.fault n = u.fault n := fault_congr (endsAs_faults h) n

/-- The queue takes a READ_TOKEN at most. -/
theorem endsAs_mem_queue (h : t.endsAs u p) {c : Command} (hc : c ∈ t.rail.queue) (hr : ∀ d, c ≠ .readToken d) :
    c ∈ u.rail.queue := by
  rcases h.2 with ⟨_, e⟩ | ⟨d, _, e⟩
  · rw [e] at hc
    exact hc
  · rw [e, List.mem_append, List.mem_singleton] at hc
    exact hc.resolve_right (hr d)

end EndsAs

/-! ## The notices of an event that changes no slot -/

/-- The restart of the stale timer at an uplink request leaves the uplink port's own unit (R153). -/
theorem afterAnswer_port_self (u : State) (p : Port) (restarts : Bool) (reply : Reply) :
    (u.afterAnswer p restarts reply).port p = u.port p := by
  unfold State.afterAnswer
  split
  · split
    · rename_i hp
      obtain ⟨rfl, _⟩ := hp
      unfold State.restartStale
      dsimp only
      split
      · rfl
      · rw [notify_port_ne _ _ (by decide), notify_port_ne _ _ (by decide)]
        rfl
    · rfl
  · rfl

/-- The sweep sets COMMAND_WAITING at the rail port exactly where it writes the rail (R6, R45). -/
theorem sweep_notified (u : State) (q : Port) (k : Notice) :
    u.sweep.notified q k ↔ u.notified q k ∨ (q = .rail ∧ k = .commandWaiting ∧ u.sweep.rail ≠ u.rail) := by
  unfold State.sweep
  split
  · rename_i d _
    have moved : (State.pushCommand (.readToken d) { u with rail := { u.rail with cursor := some d } }).rail ≠ u.rail := by
      intro e
      have := congrArg (fun r => r.queue.length) e
      simp [State.pushCommand] at this
    unfold State.pushCommand at moved ⊢
    rw [notified_notify]
    simp only [moved, ne_eq, not_false_eq_true, and_true]
    rfl
  · simp

/-- The notices pending at its port after an accepted request whose owner left the journal as it was. -/
theorem finishFrame_notified (s u : State) (p : Port) (first : Byte) (bytes : List Byte) (body : AcceptBody) (k : Notice)
    (hj : u.journal = s.journal) (hr : u.rail = s.rail) :
    let t := finishFrame p first bytes true (accept body u) s
    t.notified p k ↔ u.notified p k ∨ (p = .rail ∧ k = .commandWaiting ∧ t.rail ≠ s.rail) := by
  intro t
  let v := (u.afterAnswer p true (.accept body)).placeAnswer p ⟨first, tagOf bytes, .accept body⟩
  have ht : t = (v.sweep).reckonLines s := by
    show ((v.reckonMode s).sweep).reckonLines s = _
    rw [reckonMode_same (by rw [placeAnswer_journal, afterAnswer_journal, hj])]
  have hv : v.rail = s.rail := by rw [placeAnswer_rail, afterAnswer_rail, hr]
  have self : v.notified p k ↔ u.notified p k := by
    rw [placeAnswer_notified]
    simp only [State.notified, afterAnswer_port_self]
  rw [ht, reckonLines_notified, sweep_notified, self, reckonLines_rail, hv]

/-- An event that closes once the timebase of its request stands, and the port units, is `endsAs` of its station. -/
theorem endsAs_of_settlesAs {t v u : State} {p : Port} (h : t.settlesAs v)
    (hv : v = { u with time := u.clocked p, ports := v.ports }) : t.endsAs u p := by
  generalize v.ports = units at hv
  subst hv
  obtain ⟨writes, swept⟩ := h
  exact ⟨writes, sweptFrom_of_parts (u := State.withMode { u with time := u.clocked p, ports := units } _) rfl
    (congrArg StationConfig.configured (clocked_config u p)).symm (clocked_clockValid u p).symm rfl rfl swept⟩

/-- What an accepted request's event writes outside the port units, whatever its owner did to them. -/
theorem finishFrame_endsAs (s u : State) (p : Port) (first : Byte) (bytes : List Byte) (body : AcceptBody) :
    (finishFrame p first bytes true (accept body u) s).endsAs u p := by
  refine endsAs_of_settlesAs (v := (u.afterAnswer p true (.accept body)).placeAnswer p _) (closeEvent_settlesAs _ s) ?_
  conv_lhs => rw [(afterAnswer_accept u p body).2.2]
  rfl

end Sys2Proof.Machine.RideLaws
end

section
/-! PROOFS. READ_NOTICES and SET_NOTICE_ENABLES (R181, R183). -/

namespace Sys2Proof.Machine.RideLaws

open Sys2Proof.Machine.Laws

/-- The units after an accepted request: the answer at its own port, the enable sets as its owner left them, and the slots
of the other ports. -/
theorem finishFrame_units (s u : State) (p : Port) (first : Byte) (bytes : List Byte) (body : AcceptBody) :
    let t := finishFrame p first bytes true (accept body u) s
    (t.port p).slot = some ⟨first, tagOf bytes, .accept body⟩ ∧ (t.port p).transfer = (u.port p).transfer
      ∧ (∀ q, (t.port q).enableSet = (u.port q).enableSet) ∧ ∀ q, q ≠ p → (t.port q).slot = (u.port q).slot := by
  intro t
  let v := (u.afterAnswer p true (.accept body)).placeAnswer p ⟨first, tagOf bytes, .accept body⟩
  have ht : PortsFollow t v := closeEvent_follow ..
  have hg := (afterAnswer_accept u p body).2.1
  refine ⟨?_, ?_, fun q => ?_, fun q hq => ?_⟩
  · rw [ht.slot, placeAnswer_port_self]
  · rw [ht.transfer, placeAnswer_port_self]
    exact hg.transfer p
  · rw [ht.enableSet]
    by_cases hq : q = p
    · subst hq
      rw [placeAnswer_port_self]
      exact hg.enableSet q
    · rw [placeAnswer_port_ne _ _ hq, hg.enableSet]
  · rw [ht.slot, placeAnswer_port_ne _ _ hq, hg.slot]

/-- A port's ride outcome list once the entries of cleared kinds have left it (R181). -/
theorem clearOutcomes_self (r : Rides) (p : Port) (gone : NoticeSet) :
    (r.clearOutcomes p gone).outcomes? p
      = (r.outcomes? p).map (fun l => l.filter (fun o => !gone.has o.kind.notice)) := by
  cases p <;> rfl

theorem clearOutcomes_ne (r : Rides) {p q : Port} (gone : NoticeSet) (h : q ≠ p) :
    (r.clearOutcomes p gone).outcomes? q = r.outcomes? q := by
  cases p <;> cases q <;> simp_all [Rides.clearOutcomes, Rides.outcomes?]

theorem clearOutcomes_kept (r : Rides) (p : Port) (gone : NoticeSet) :
    (r.clearOutcomes p gone).settled = r.settled ∧ (r.clearOutcomes p gone).nextRide = r.nextRide := by
  cases p <;> exact ⟨rfl, rfl⟩

/-! ## A request that writes its own port's sets -/

@[simp] theorem endRequest_pendingSet (s : State) (p : Port) (n : Nat) :
    ((s.endRequest p n).port p).pendingSet = (s.port p).pendingSet := by rw [endRequest_port_self]

@[simp] theorem endRequest_enableSet (s : State) (p : Port) (n : Nat) :
    ((s.endRequest p n).port p).enableSet = (s.port p).enableSet := by rw [endRequest_port_self]

/-- The station with other ride records and with other sets at one port: what the two notice requests leave. -/
def writeSets (s : State) (p : Port) (rides : Rides) (pending enabled : NoticeSet) : State :=
  { s with rides := rides }.setPort p { s.port p with pendingSet := pending, enableSet := enabled }

/-- READ_NOTICES writes the outcome list and the pending set (R181). -/
theorem ownReadNotices_writes (p : Port) (clear : List Notice) (s : State) :
    ownReadNotices p clear s =
      let gone := (s.port p).pendingSet &&& noticeSetOf clear
      accept (.notices (s.port p).pendingSet gone (s.port p).enableSet (s.rides.outcomes? p))
        (writeSets s p (s.rides.clearOutcomes p gone) ((s.port p).pendingSet &&& ~~~gone) (s.port p).enableSet) := rfl

/-- SET_NOTICE_ENABLES writes the enable set (R183). -/
theorem ownSetNoticeEnables_writes (p : Port) (req : EnablesReq) (s : State) :
    ownSetNoticeEnables p req s =
      let enabled := ((s.port p).enableSet ||| noticeSetOf req.enable) &&& ~~~(noticeSetOf req.disable)
      accept (.enables enabled (s.port p).pendingSet)
        (writeSets s p s.rides (s.port p).pendingSet enabled) := rfl

/-- The end of such a request: the written sets stand at its port, but for the sweep's COMMAND_WAITING. -/
theorem finish_writeSets (s : State) (p : Port) (first : Byte) (bytes : List Byte) (body : AcceptBody) (n : Nat)
    (rides : Rides) (pending enabled : NoticeSet) :
    let t := finishFrame p first bytes true (accept body (writeSets (s.endRequest p n) p rides pending enabled)) s
    t.answered p first bytes (.accept body) ∧ t.endsAs { s with rides := rides } p
      ∧ (∀ k : Notice, t.notified p k ↔
          pending.has k = true ∨ (p = .rail ∧ k = .commandWaiting ∧ t.rail ≠ s.rail))
      ∧ (t.port p).enableSet = enabled
      ∧ ∀ q, q ≠ p → (t.port q).slot = (s.port q).slot ∧ (t.port q).enableSet = (s.port q).enableSet := by
  intro t
  let u := writeSets (s.endRequest p n) p rides pending enabled
  have self : u.port p = { (s.endRequest p n).port p with pendingSet := pending, enableSet := enabled } :=
    setPort_port_self ..
  have other : ∀ q, q ≠ p → u.port q = s.port q := fun q hq =>
    (setPort_port_ne _ _ hq).trans (endRequest_port_ne s n hq)
  obtain ⟨slot, transfer, enable, slots⟩ := finishFrame_units s u p first bytes body
  refine ⟨⟨slot, ?_⟩, endsAs_congr (finishFrame_endsAs s u p first bytes body) rfl, fun k => ?_, ?_, fun q hq => ?_⟩
  · rw [transfer, self, endRequest_port_self]
  · have left : u.notified p k ↔ pending.has k = true := by simp only [State.notified, self]
    exact (finishFrame_notified s u p first bytes body k rfl rfl).trans (or_congr_left left)
  · rw [enable, self]
  · rw [slots q hq, enable, other q hq]
    exact ⟨rfl, rfl⟩

/-- Settles O10: both requests write their own port's sets, and the event's end adds a COMMAND_WAITING at most. -/
theorem noticeRequests : Obligations.NoticeRequests := by
  unfold Obligations.NoticeRequests
  constructor
  · intro s p bytes clear h
    let gone : NoticeSet := (s.port p).pendingSet &&& noticeSetOf clear
    have cleared : ∀ k : Notice, gone.has k = true ↔ s.notified p k ∧ k ∈ clear := fun k => by
      simp [gone, State.notified, has_noticeSetOf]
    have run := serve_takes h (ownReadNotices p)
    rw [ownReadNotices_writes] at run
    simp only [endRequest_pendingSet, endRequest_enableSet, endRequest_rides] at run
    obtain ⟨answered, ends, pending, enable, other⟩ := finish_writeSets s p ReqKind.readNotices.code bytes
      (.notices (s.port p).pendingSet gone (s.port p).enableSet (s.rides.outcomes? p)) (bytes.length + 1)
      (s.rides.clearOutcomes p gone) ((s.port p).pendingSet &&& ~~~gone) (s.port p).enableSet
    have rides := endsAs_rides ends
    refine ⟨_, gone, congrArg Host.Outcome.next run, answered, cleared, fun k => ?_, enable, ?_, ?_, ?_, ?_,
      fun q hq => ⟨?_, other q hq⟩⟩
    · have left : ((s.port p).pendingSet &&& ~~~gone).has k = true ↔ s.notified p k ∧ k ∉ clear := by
        have := cleared k
        simp only [State.notified, has_and, has_not, Bool.and_eq_true, Bool.not_eq_true'] at this ⊢
        rw [← Bool.not_eq_true, this]
        tauto
      rw [← left]
      exact pending k
    · exact (congrArg (Rides.outcomes? · p) rides).trans (clearOutcomes_self ..)
    · exact endsAs_congr ends (congrArg (fun r => ({ s with rides := r } : State)) rides)
    · exact (congrArg Rides.settled rides).trans (clearOutcomes_kept ..).1
    · exact (congrArg Rides.nextRide rides).trans (clearOutcomes_kept ..).2
    · exact (congrArg (Rides.outcomes? · q) rides).trans (clearOutcomes_ne _ _ hq)
  · intro s p bytes req h
    let enabled : NoticeSet := ((s.port p).enableSet ||| noticeSetOf req.enable) &&& ~~~(noticeSetOf req.disable)
    have run := serve_takes h (ownSetNoticeEnables p)
    rw [ownSetNoticeEnables_writes] at run
    simp only [endRequest_pendingSet, endRequest_enableSet, endRequest_rides] at run
    obtain ⟨answered, ends, pending, enable, other⟩ := finish_writeSets s p ReqKind.setNoticeEnables.code bytes
      (.enables enabled (s.port p).pendingSet) (bytes.length + 1) s.rides (s.port p).pendingSet enabled
    refine ⟨_, enabled, congrArg Host.Outcome.next run, answered, fun k => ?_, enable, pending, ends,
      fun q hq => (other q hq).symm⟩
    simp [enabled, has_noticeSetOf, has_not]

end Sys2Proof.Machine.RideLaws
end

section
/-! PROOFS. RELEASE, HOLD and HOLD_CANCEL: their checks in order, and what an accepted one leaves (R27 to R30, R36, R38). -/

namespace Sys2Proof.Machine.RideLaws

open Sys2Proof.Machine.Laws

/-! ## Checks in order -/

/-- A judgement behind a list of checks: the reason of the first that fails, or what the judgement gives. -/
def guarded {α : Type} (checks : List (Bool × RefusalReason)) (judged : Except RefusalReason α) :
    Except RefusalReason α :=
  match firstFailing checks with
  | some reason => .error reason
  | none => judged

theorem guarded_failing {α : Type} {checks : List (Bool × RefusalReason)} {reason : RefusalReason}
    (h : firstFailing checks = some reason) (judged : Except RefusalReason α) :
    guarded checks judged = .error reason := by
  rw [guarded, h]

theorem guarded_passing {α : Type} {checks : List (Bool × RefusalReason)} (h : firstFailing checks = none)
    (judged : Except RefusalReason α) : guarded checks judged = judged := by
  rw [guarded, h]

theorem guarded_cons {α : Type} (fails : Bool) (reason : RefusalReason) (rest : List (Bool × RefusalReason))
    (judged : Except RefusalReason α) :
    guarded ((fails, reason) :: rest) judged = if fails then .error reason else guarded rest judged := by
  unfold guarded
  rw [firstFailing]
  cases fails <;> rfl

theorem guarded_nil {α : Type} (judged : Except RefusalReason α) : guarded [] judged = judged := rfl

theorem guarded_append {α : Type} (first rest : List (Bool × RefusalReason)) (judged : Except RefusalReason α) :
    guarded (first ++ rest) judged = guarded first (guarded rest judged) := by
  induction first with
  | nil => rfl
  | cons x xs ih => rw [List.cons_append, guarded_cons, guarded_cons, ih]

/-! ## The checks of a release -/

/-- Steps 1 to 3 of R27. -/
def stationChecks (s : State) : List (Bool × RefusalReason) :=
  [(!s.time.clockValid, .clockUnset), (s.fares.plan0.isNone, .noTariff),
   (decide (s.time.stationMode = .closed), .stationClosed)]

/-- Steps 4 to 7 of R27 on an entry. -/
def entryChecks (s : State) (c : CardEntry) : List (Bool × RefusalReason) :=
  [(decide (c.state ≠ .active), .cardBlocked), (c.inFlight.isSome, .cardBusy), (!s.entitled c, .cardBlocked),
   (decide (s.journal.mode = .reserve), .journalReserve),
   (decide (s.journal.mode = .tight) && !s.onPass c, .journalTight)]

/-- Steps 8 and 9 of R27: the dock, and the room on the rail. -/
def dockAndRoom (s : State) (c : CardEntry) (named : Option DockNo) : Except RefusalReason DockNo :=
  match s.releaseDock c named with
  | .error reason => .error reason
  | .ok d => if s.rail.hasRoom then .ok d else .error .railBusy

theorem dockAndRoom_noDock {s : State} {c : CardEntry} {named : Option DockNo} {reason : RefusalReason}
    (h : s.releaseDock c named = .error reason) : dockAndRoom s c named = .error reason := by
  rw [dockAndRoom, h]

theorem hasRoom_iff (r : Rail) : r.hasRoom = true ↔ r.queue.length + r.opens.length < 24 := decide_eq_true_iff

theorem dockAndRoom_noRoom {s : State} {c : CardEntry} {named : Option DockNo} {d : DockNo}
    (h : s.releaseDock c named = .ok d) (full : 24 ≤ s.rail.queue.length + s.rail.opens.length) :
    dockAndRoom s c named = .error .railBusy := by
  simp only [dockAndRoom, h, hasRoom_iff]
  exact if_neg (by omega)

theorem dockAndRoom_ok {s : State} {c : CardEntry} {named : Option DockNo} {d : DockNo}
    (h : s.releaseDock c named = .ok d) (room : s.rail.hasRoom = true) : dockAndRoom s c named = .ok d := by
  simp only [dockAndRoom, h, room, if_true]

/-- Step 7 of R27 as two checks: nothing is given in RESERVE, and in TIGHT only on a pass (R26). -/
theorem journalBars_eq (s : State) (c : CardEntry) :
    s.journalBars c = firstFailing [(decide (s.journal.mode = .reserve), .journalReserve),
      (decide (s.journal.mode = .tight) && !s.onPass c, .journalTight)] := by
  unfold State.journalBars
  cases s.journal.mode <;> cases s.onPass c <;> rfl

/-- Steps 4 to 9 of R27 on an entry, as a list of checks before the dock and the room. -/
theorem judgeEntry_guarded (s : State) (c : CardEntry) (named : Option DockNo) :
    s.judgeEntry c named = guarded (entryChecks s c) (dockAndRoom s c named) := by
  unfold State.judgeEntry entryChecks
  rw [journalBars_eq, guarded_cons, guarded_cons, guarded_cons]
  simp only [decide_eq_true_eq]
  rfl

/-- The whole judgement of a release of a card with an entry. -/
theorem judgeRelease_of_card {s : State} {req : RideReq} {c : CardEntry} (p : Port) (hc : s.card req.card = some c) :
    s.judgeRelease p req
      = (guarded (stationChecks s ++ entryChecks s c) (dockAndRoom s c req.dock)).map
          (fun d => { entry := c, cards := s.cards, dock := d, evicted := none }) := by
  rw [guarded_append, ← judgeEntry_guarded]
  unfold State.judgeRelease stationChecks
  simp only [guarded_cons, guarded_nil, hc, decide_eq_true_eq]
  split_ifs
  · rfl
  · rfl
  · rfl
  · cases s.judgeEntry c req.dock <;> rfl

/-- A release that its judgement refuses (R176). -/
theorem ownRelease_refused {s : State} {p : Port} {req : RideReq} {reason : RefusalReason}
    (h : s.judgeRelease p req = .error reason) (n : Nat) :
    ownRelease p req (s.endRequest p n) = refuse reason (s.endRequest p n) := by
  have judged : (s.endRequest p n).judgeRelease p req = .error reason := h
  rw [ownRelease, judged, orRefuse]

/-- The checks of R27 with the pass and the start minimum spelled out: before a tariff is found the entitlement is not
judged. -/
theorem checks_spelled (s : State) (c : CardEntry) {onPass affords : Bool} (hp : onPass = s.onPass c)
    (ha : s.fares.plan0.isSome = true → (onPass || c.provisional || affords) = s.entitled c) :
    firstFailing
      [(!s.time.clockValid, RefusalReason.clockUnset), (s.fares.plan0.isNone, .noTariff),
       (decide (s.time.stationMode = .closed), .stationClosed), (decide (c.state ≠ .active), .cardBlocked),
       (c.inFlight.isSome, .cardBusy), (!(onPass || c.provisional || affords), .cardBlocked),
       (decide (s.journal.mode = .reserve), .journalReserve),
       (decide (s.journal.mode = .tight) && !onPass, .journalTight)]
      = firstFailing (stationChecks s ++ entryChecks s c) := by
  subst hp
  by_cases plan : s.fares.plan0.isSome = true
  · rw [ha plan]
    rfl
  · have empty : s.fares.plan0.isNone = true := by simpa using plan
    simp only [stationChecks, entryChecks, List.cons_append, firstFailing, empty, if_true]

/-- Settles O11: the judgement is the list of checks, then the dock, then the room. -/
theorem releaseJudgedInOrder : Obligations.ReleaseJudgedInOrder := by
  unfold Obligations.ReleaseJudgedInOrder
  intro s p bytes req c reason h hc hyp
  extract_lets onPass affords checks at hyp
  have pass : onPass = s.onPass c := by
    unfold onPass State.onPass CardKind.covers
    cases c.kind <;> rfl
  have entitled : s.fares.plan0.isSome = true → (onPass || c.provisional || affords) = s.entitled c := by
    intro plan
    obtain ⟨p0, hp0⟩ := Option.isSome_iff_exists.1 plan
    have hp0' : s.fares.active[(0 : Fin 8)] = some p0 := hp0
    rw [pass]
    unfold affords State.entitled Fares.resolve
    rw [hp0, hp0']
    cases s.fares.active[c.tariff] <;> rfl
  have spelled : firstFailing checks = firstFailing (stationChecks s ++ entryChecks s c) :=
    checks_spelled s c pass entitled
  have judged : s.judgeRelease p req = .error reason := by
    rw [judgeRelease_of_card p hc]
    rcases hyp with failing | ⟨passing, noDock⟩ | ⟨passing, ⟨d, hd⟩, full, rfl⟩
    · rw [guarded_failing (spelled ▸ failing)]
      rfl
    · rw [guarded_passing (spelled ▸ passing), dockAndRoom_noDock noDock]
      rfl
    · rw [guarded_passing (spelled ▸ passing), dockAndRoom_noRoom hd full]
      rfl
  exact ⟨_, rfl, serve_refused h (ownRelease_refused judged _)⟩

/-! ## A release of an absent card -/

theorem provisionalPath_iff (s : State) (p : Port) :
    s.provisionalPath p = true ↔ p = .terminal ∧ s.time.link = .offline ∧ s.time.config.provisionalReleases = true
      ∧ s.provisionalCount < 32 := by
  simp only [State.provisionalPath, Bool.and_eq_true, decide_eq_true_eq, and_assoc]
  rfl

section Absent

variable {s : State} {req : RideReq} {p : Port} (hc : s.card req.card = none) (clock : s.time.clockValid = true)
  (plan : s.fares.plan0.isSome = true) (mode : s.time.stationMode = .open)
include hc clock plan mode

/-- Off the provisional path an absent card is unknown (R28). -/
theorem judgeRelease_unknown (path : ¬ s.provisionalPath p = true) : s.judgeRelease p req = .error .unknownCard := by
  have some0 : s.fares.plan0.isNone = false := by simpa using plan
  simp [State.judgeRelease, clock, some0, mode, hc, path]

/-- The provisional entry is judged like any other (R28). -/
theorem judgeRelease_entryRefused (path : s.provisionalPath p = true) {reason : RefusalReason}
    (judged : s.judgeEntry (s.provisionalEntry req.card) req.dock = .error reason) :
    s.judgeRelease p req = .error reason := by
  have some0 : s.fares.plan0.isNone = false := by simpa using plan
  simp [State.judgeRelease, clock, some0, mode, hc, path, judged]

/-- A table full of pinned entries refuses last (R73; log 12). -/
theorem judgeRelease_tableFull (path : s.provisionalPath p = true) {d : DockNo}
    (judged : s.judgeEntry (s.provisionalEntry req.card) req.dock = .ok d) (full : roomForCard s.cards = none) :
    s.judgeRelease p req = .error .tableFull := by
  have some0 : s.fares.plan0.isNone = false := by simpa using plan
  simp [State.judgeRelease, clock, some0, mode, hc, path, judged, full]

/-- The grant of a release on the provisional path: its entry is made in the room found (R70, R73). -/
theorem judgeRelease_provisional (path : s.provisionalPath p = true) {d : DockNo}
    (judged : s.judgeEntry (s.provisionalEntry req.card) req.dock = .ok d) {left : List CardEntry}
    {evicted : Option Nat} (room : roomForCard s.cards = some (left, evicted)) :
    s.judgeRelease p req
      = .ok ⟨s.provisionalEntry req.card, insertCard (s.provisionalEntry req.card) left, d, evicted⟩ := by
  have some0 : s.fares.plan0.isNone = false := by simpa using plan
  simp [State.judgeRelease, clock, some0, mode, hc, path, judged, room]

end Absent

/-- A provisional entry meets every check on an entry but those of the journal mode (R26, R27), and has no hold (R29). -/
theorem judgeEntry_provisional (s : State) (card : Nat) (named : Option DockNo) :
    s.judgeEntry (s.provisionalEntry card) named
      = guarded [(decide (s.journal.mode = .reserve), .journalReserve), (decide (s.journal.mode = .tight), .journalTight)]
          (dockAndRoom s (s.provisionalEntry card) named) := by
  have entitled : s.entitled (s.provisionalEntry card) = true := by
    simp [State.entitled, State.provisionalEntry]
  have noPass : s.onPass (s.provisionalEntry card) = false := rfl
  rw [judgeEntry_guarded]
  simp only [entryChecks, entitled, noPass, Bool.not_true, Bool.not_false, Bool.and_true]
  rfl

/-- The dock of a release is named or chosen where the card holds none (R29). -/
theorem releaseDock_provisional (s : State) (card : Nat) (named : Option DockNo) :
    s.releaseDock (s.provisionalEntry card) named = s.findDock named := rfl

/-- An accepted release as it is granted. -/
theorem ownRelease_accepted {s : State} {p : Port} {req : RideReq} {g : Grant} (h : s.judgeRelease p req = .ok g)
    (n : Nat) :
    ownRelease p req (s.endRequest p n)
      = accept (.released g.dock s.rides.nextRide g.evicted) ((s.endRequest p n).grantRelease (riderPortOf p) g) := by
  have judged : (s.endRequest p n).judgeRelease p req = .ok g := h
  rw [ownRelease, judged, orRefuse]
  rfl

/-! ## What an accepted release leaves -/

/-- The station after a release is granted, the port units aside (R30). -/
def afterRelease (s : State) (origin : RiderPort) (g : Grant) (b : DockedBike) : State :=
  { s with
    rides := { s.rides with nextRide := if 65535 ≤ s.rides.nextRide then 1 else s.rides.nextRide + 1 }
    cards := updateCard g.entry.number
      (fun x => { x with holdDock := none, inFlight := some g.dock, lastUse := s.stamp }) g.cards
    journal := { s.journal with reserved := s.journal.reserved + 1 }
    rail :=
      { s.rail with
        docks := s.rail.docks.set g.dock
          { s.dock g.dock with
            state := .unlocking b
              { card := g.entry.number, ride := s.rides.nextRide, provisional := g.entry.provisional,
                window := s.time.config.unlockWindow, fetched := false, origin := origin } }
        queue := s.rail.queue ++ [.unlock g.dock (s.buildToken g.entry)] } }

theorem afterRelease_dock_self (s : State) (origin : RiderPort) (g : Grant) (b : DockedBike) :
    (afterRelease s origin g b).dock g.dock
      = { s.dock g.dock with
          state := .unlocking b
            { card := g.entry.number, ride := s.rides.nextRide, provisional := g.entry.provisional,
              window := s.time.config.unlockWindow, fetched := false, origin := origin } } :=
  Vector.getElem_set_self _

theorem afterRelease_dock_ne (s : State) (origin : RiderPort) (g : Grant) (b : DockedBike) {e : DockNo}
    (h : e ≠ g.dock) : (afterRelease s origin g b).dock e = s.dock e :=
  Vector.getElem_set_ne g.dock.isLt e.isLt (fun q => h (Fin.ext q.symm))

theorem grantRelease_eq {s : State} {origin : RiderPort} {g : Grant} {b : DockedBike}
    (hb : (s.dock g.dock).state.bike? = some b) :
    s.grantRelease origin g
      = { afterRelease s origin g b with ports := (s.notify .rail .commandWaiting).ports } := by
  have bike : s.bikeAt g.dock = b := by rw [State.bikeAt, hb]; rfl
  have same : ∀ r, (DockState.unlocking b r).heldToken? = (s.dock g.dock).state.heldToken? := fun r => by
    simp only [DockState.heldToken?, hb]
    rfl
  unfold State.grantRelease
  dsimp only
  rw [State.putDockState, putDock_withDock _ _ _ (by rw [bike]; exact same _), bike]
  rfl

/-- The port units alone say how the notices grew. -/
theorem follow_withPorts {v w : State} (h : PortsFollow v w) (u : State) :
    PortsFollow { u with ports := v.ports } w :=
  have same : PortsFollow { u with ports := v.ports } v := .of_ports rfl
  same.trans h

/-- An accepted release, at the end of its event. -/
theorem release_accepted {s : State} {p : Port} {bytes : List Byte} {req : RideReq} {g : Grant} {b : DockedBike}
    (h : s.takes .release p bytes readRide req) (judged : s.judgeRelease p req = .ok g)
    (hb : (s.dock g.dock).state.bike? = some b) :
    ∃ t, exec (.release p bytes) s = .next t
      ∧ t.answered p ReqKind.release.code bytes (.accept (.released g.dock s.rides.nextRide g.evicted))
      ∧ t.notified .rail .commandWaiting ∧ t.portsKept s p ∧ t.endsAs (afterRelease s (riderPortOf p) g b) p := by
  have own := ownRelease_accepted judged (bytes.length + 1)
  rw [grantRelease_eq (s := s.endRequest p _) hb] at own
  let told := State.notify .rail .commandWaiting (s.endRequest p (bytes.length + 1))
  have follow : PortsFollow told (s.endRequest p (bytes.length + 1)) := (notify_grows ..).follow
  obtain ⟨answered, ends, kept, notified⟩ := serve_accepted h rfl own (follow_withPorts follow _)
  have waiting : told.notified .rail .commandWaiting := notify_notified ..
  exact ⟨_, rfl, answered, notified _ _ waiting, kept, endsAs_congr ends rfl⟩

/-- The stations checks pass in an open station with a valid clock and a tariff. -/
theorem stationChecks_pass {s : State} (clock : s.time.clockValid = true) (plan : s.fares.plan0.isSome = true)
    (mode : s.time.stationMode = .open) : firstFailing (stationChecks s) = none := by
  have some0 : s.fares.plan0.isNone = false := by simpa using plan
  simp [stationChecks, firstFailing, clock, some0, mode]

theorem stamp_of_valid {s : State} (h : s.time.clockValid = true) : s.stamp = s.time.clock := if_pos h

/-- Settles O12: every check passes, and the grant is spelled out. -/
theorem releaseGranted : Obligations.ReleaseGranted := by
  unfold Obligations.ReleaseGranted
  intro s p bytes req c d b h clock plan mode hc active inFlight entitled bars dock room hb
  have judged : s.judgeRelease p req = .ok ⟨c, s.cards, d, none⟩ := by
    have entry : s.judgeEntry c req.dock = .ok d := by
      simp [State.judgeEntry, active, inFlight, entitled, bars, dock, room]
    rw [judgeRelease_of_card p hc, guarded_append, ← judgeEntry_guarded,
      guarded_passing (stationChecks_pass clock plan mode), entry]
    rfl
  have number : c.number = req.card := findCard_number hc
  obtain ⟨t, run, answered, waiting, kept, ends⟩ := release_accepted h judged hb
  refine ⟨t, run, answered, waiting, kept, ?_⟩
  unfold afterRelease State.buildToken at ends
  rw [stamp_of_valid clock] at ends
  rw [← number]
  exact ends

/-! ## The dock of a release or a hold -/

theorem pickBest_mem {α : Type} {better : α → α → Bool} {l : List α} {x : α} (h : pickBest better l = some x) : x ∈ l := by
  induction l generalizing x with
  | nil => exact nomatch h
  | cons y ys ih =>
    rw [pickBest] at h
    split at h
    · cases h
      exact List.mem_cons_self
    · rename_i z hz
      split at h
      · cases h
        exact List.mem_cons_of_mem _ (ih hz)
      · cases h
        exact List.mem_cons_self

/-- A dock found where none is held is DOCKED (R29). -/
theorem findDock_docked {s : State} {named : Option DockNo} {d : DockNo} (h : s.findDock named = .ok d) :
    ∃ b, (s.dock d).state = .docked b := by
  cases named with
  | some e =>
    change s.namedDock e = .ok d at h
    unfold State.namedDock at h
    cases hst : (s.dock e).state with
    | docked b =>
      rw [hst] at h
      dsimp only at h
      split_ifs at h
      cases h
      exact ⟨b, hst⟩
    | _ => rw [hst] at h; cases h
  | none =>
    unfold State.findDock at h
    dsimp only at h
    split at h
    · rename_i e he
      cases h
      have available := (List.mem_filter.1 (pickBest_mem he)).2
      unfold State.available at available
      cases hst : (s.dock d).state with
      | docked b => exact ⟨b, rfl⟩
      | _ => rw [hst] at available; cases available
    · cases h

/-- What an eviction leaves of the card table, read back. -/
theorem findCard_left (evicted : Option Nat) (n : Nat) (cards : List CardEntry) :
    findCard n (cards.filter (fun c => decide (evicted ≠ some c.number)))
      = if evicted = some n then none else findCard n cards := by
  induction cards with
  | nil => simp [findCard]
  | cons c cs ih =>
    by_cases gone : evicted = some c.number
    · rw [List.filter_cons_of_neg (by simp [gone]), ih, findCard_cons]
      by_cases hn : c.number = n
      · simp [gone, hn]
      · rw [if_neg hn]
    · rw [List.filter_cons_of_pos (by simpa using gone), findCard_cons, findCard_cons, ih]
      by_cases hn : c.number = n
      · subst hn
        rw [if_pos rfl, if_neg gone, if_pos rfl]
      · rw [if_neg hn, if_neg hn]

/-- What the card table reads back as once a new entry is made and written. -/
theorem findCard_made {e : CardEntry} {left : List CardEntry} (absent : findCard e.number left = none)
    {f : CardEntry → CardEntry} (hf : ∀ c, (f c).number = c.number) (n : Nat) :
    findCard n (updateCard e.number f (insertCard e left)) = if n = e.number then some (f e) else findCard n left := by
  split
  · rename_i hn
    subst hn
    rw [updateCard_find_self _ _ _ hf, findCard_insertCard _ _ absent, if_pos rfl]
    rfl
  · rename_i hn
    rw [updateCard_find_ne _ _ hf hn, findCard_insertCard _ _ absent, if_neg (Ne.symm hn)]

/-- Settles O13: the provisional entry is judged as any other, then the room in the table; the grant is spelled out, with
what the new entry and the evicted one read back as. -/
theorem provisionalRelease : Obligations.ProvisionalRelease := by
  unfold Obligations.ProvisionalRelease
  intro s p bytes req h clock plan mode hc
  constructor
  · intro offPath
    have judged := judgeRelease_unknown hc clock plan mode (fun path => offPath ((provisionalPath_iff s p).1 path))
    exact ⟨_, rfl, serve_refused h (ownRelease_refused judged _)⟩
  intro terminal offline allowed few
  have path : s.provisionalPath p = true := (provisionalPath_iff s p).2 ⟨terminal, offline, allowed, few⟩
  have entryOk : ∀ d, s.journal.mode = .normal → s.findDock req.dock = .ok d → s.rail.hasRoom = true →
      s.judgeEntry (s.provisionalEntry req.card) req.dock = .ok d := fun d normal dock room => by
    rw [judgeEntry_provisional, normal]
    exact dockAndRoom_ok dock room
  constructor
  · intro reason hyp
    have judged : s.judgeRelease p req = .error reason := by
      rcases hyp with ⟨tight, rfl⟩ | ⟨reserve, rfl⟩ | ⟨normal, noDock⟩ | ⟨normal, ⟨d, dock⟩, full, rfl⟩
        | ⟨normal, ⟨d, dock⟩, room, pinned, rfl⟩
      · exact judgeRelease_entryRefused hc clock plan mode path (by rw [judgeEntry_provisional, tight]; rfl)
      · exact judgeRelease_entryRefused hc clock plan mode path (by rw [judgeEntry_provisional, reserve]; rfl)
      · refine judgeRelease_entryRefused hc clock plan mode path ?_
        rw [judgeEntry_provisional, normal]
        exact dockAndRoom_noDock noDock
      · refine judgeRelease_entryRefused hc clock plan mode path ?_
        rw [judgeEntry_provisional, normal]
        exact dockAndRoom_noRoom dock full
      · exact judgeRelease_tableFull hc clock plan mode path (entryOk d normal dock room)
          ((roomForCard_eq_none s).2 pinned)
    exact ⟨_, rfl, serve_refused h (ownRelease_refused judged _)⟩
  · intro d evicted normal dock room evicts
    obtain ⟨left, hleft⟩ := evicts_roomForCard evicts
    obtain ⟨-, rest⟩ := roomForCard_evicts hleft
    obtain ⟨b, hb⟩ := findDock_docked dock
    have judged := judgeRelease_provisional hc clock plan mode path (entryOk d normal dock room) hleft
    obtain ⟨t, run, answered, waiting, kept, ends⟩ := release_accepted (b := b) h judged (by
      show (s.dock d).state.bike? = _
      rw [hb]
      rfl)
    have cards : ∀ n, t.card n = if n = req.card then
        some { s.provisionalEntry req.card with holdDock := none, inFlight := some d, lastUse := s.stamp }
        else if evicted = some n then none else s.card n := fun n => by
      have absent : findCard (s.provisionalEntry req.card).number left = none := by
        rw [rest, findCard_left]
        split
        · rfl
        · exact hc
      rw [endsAs_card ends]
      refine (findCard_made absent (f := fun x => { x with holdDock := none, inFlight := some d, lastUse := s.stamp })
        (fun _ => rfl) n).trans ?_
      rw [rest, findCard_left]
      rfl
    refine ⟨t, run, answered, ?_, fun n hn kept => ?_, fun n gone => ?_, ?_, fun e he => ?_, (endsAs_reserved ends :),
      (endsAs_records ends :), waiting, kept, fun b' hb' => ?_⟩
    · rw [cards, if_pos rfl, stamp_of_valid clock]
      rfl
    · rw [cards, if_neg hn, if_neg kept]
    · have other : n ≠ req.card := by
        rintro rfl
        rcases evicts with ⟨_, stays⟩ | ⟨_, c, hmem, _, named, _⟩
        · cases stays.symm.trans gone
        · have := List.find?_eq_none.1 hc c hmem
          exact this (beq_iff_eq.2 (Option.some.inj (gone.symm.trans named)).symm)
      rw [cards, if_neg other, if_pos gone]
    · rw [endsAs_dock ends, afterRelease_dock_self]
      exact ⟨b, _, rfl, rfl, rfl⟩
    · rw [endsAs_dock ends, afterRelease_dock_ne _ _ _ _ he]
    · cases hb.symm.trans hb'
      subst terminal
      rw [endsAs_cards ends]
      exact ends

end Sys2Proof.Machine.RideLaws
end

section
/-! PROOFS. HOLD and HOLD_CANCEL (R36, R38). -/

namespace Sys2Proof.Machine.RideLaws

open Sys2Proof.Machine.Laws

/-! ## HOLD -/

/-- The checks of R36 before the dock. -/
def holdChecks (s : State) (req : RideReq) : List (Bool × RefusalReason) :=
  let c := s.card req.card
  [(!s.time.clockValid, .clockUnset), (s.fares.plan0.isNone, .noTariff),
   (decide (s.time.stationMode = .closed), .stationClosed), (c.isNone, .unknownCard),
   (c.any (fun c => decide (c.state ≠ .active)), .cardBlocked), (c.any (fun c => c.inFlight.isSome), .cardBusy),
   (c.any (fun c => c.holdDock.isSome), .cardHolding), (c.any (fun c => !s.entitled c), .cardBlocked),
   (decide (s.journal.mode = .reserve), .journalReserve), (decide (8 ≤ s.holdCount), .holdLimit)]

theorem judgeHold_guarded (s : State) (req : RideReq) :
    s.judgeHold req = guarded (holdChecks s req) (s.findDock req.dock) := by
  unfold State.judgeHold holdChecks
  simp only [guarded_cons, guarded_nil, decide_eq_true_eq]
  cases s.card req.card with
  | none => rfl
  | some c =>
    simp only [Option.isNone_some, Bool.false_eq_true, if_false, Option.any_some, decide_eq_true_eq]
    rfl

theorem holdChecks_pass {s : State} {req : RideReq} {c : CardEntry} (clock : s.time.clockValid = true)
    (plan : s.fares.plan0.isSome = true) (mode : s.time.stationMode = .open) (hc : s.card req.card = some c)
    (active : c.state = .active) (inFlight : c.inFlight = none) (holdDock : c.holdDock = none)
    (entitled : s.entitled c = true) (journal : s.journal.mode ≠ .reserve) (few : s.holdCount < 8) :
    firstFailing (holdChecks s req) = none := by
  have some0 : s.fares.plan0.isNone = false := by simpa using plan
  simp [holdChecks, firstFailing, clock, some0, mode, hc, active, inFlight, holdDock, entitled, journal, few]

/-- An accepted hold writes its dock and its card (R36). -/
theorem grantHold_eq {s : State} {origin : RiderPort} {card : Nat} {d : DockNo} {b : DockedBike}
    (hb : (s.dock d).state = .docked b) :
    s.grantHold origin card d
      = (s.withDock d { s.dock d with
          state := .held b { card := card, remaining := s.time.config.holdDuration, origin := origin } }).withCard card
          (fun x => { x with holdDock := some d, lastUse := s.stamp }) := by
  have bike : s.bikeAt d = b := by rw [State.bikeAt, hb]; rfl
  unfold State.grantHold
  rw [State.putDockState, bike, putDock_withDock _ _ _ (by rw [hb]; rfl)]
  rfl

/-- Settles O15: the judgement is the list of checks and then the dock, and the grant is spelled out. -/
theorem holdJudgedAndGranted : Obligations.HoldJudgedAndGranted := by
  unfold Obligations.HoldJudgedAndGranted
  intro s p bytes req h
  have own : ∀ n, ownHold p req (s.endRequest p n) = orRefuse (s.judgeHold req) (s.endRequest p n) (fun d =>
      accept (.held d s.time.config.holdDuration) ((s.endRequest p n).grantHold (riderPortOf p) req.card d)) :=
    fun _ => rfl
  constructor
  · intro reason hyp
    have judged : s.judgeHold req = .error reason := by
      rw [judgeHold_guarded]
      rcases hyp with failing
        | ⟨c, clock, plan, mode, hc, active, inFlight, holdDock, entitled, journal, few, noDock⟩
      · exact guarded_failing failing _
      · rw [guarded_passing (holdChecks_pass clock plan mode hc active inFlight holdDock entitled journal few), noDock]
    exact ⟨_, rfl, serve_refused h ((own _).trans (by rw [judged, orRefuse]))⟩
  · intro c d b clock plan mode hc active inFlight holdDock entitled journal few dock hb
    have judged : s.judgeHold req = .ok d := by
      rw [judgeHold_guarded, dock,
        guarded_passing (holdChecks_pass clock plan mode hc active inFlight holdDock entitled journal few)]
    obtain ⟨answered, ends, kept, -⟩ := serve_accepted h rfl ((own _).trans (by rw [judged, orRefuse]))
      (by rw [grantHold_eq (s := s.endRequest p _) hb]; exact .of_ports rfl)
    refine ⟨_, rfl, answered, kept, endsAs_congr ends ?_⟩
    rw [grantHold_eq (s := s.endRequest p _) hb, ← stamp_of_valid clock]
    rfl

/-! ## HOLD_CANCEL -/

theorem ownHoldCancel_noHold {s : State} {p : Port} {card : Nat}
    (h : s.card card = none ∨ ∃ c, s.card card = some c ∧ c.holdDock = none) :
    ownHoldCancel p card s = refuse .notFound s := by
  unfold ownHoldCancel
  rcases h with hc | ⟨c, hc, hd⟩
  · rw [hc]
  · simp only [hc, hd]

/-- A hold is ended at the port it came from alone (R38). -/
theorem ownHoldCancel_held {s : State} {p : Port} {card : Nat} {c : CardEntry} {d : DockNo} {b : DockedBike}
    {hold : HoldRecord} (hc : s.card card = some c) (hd : c.holdDock = some d) (hb : (s.dock d).state = .held b hold) :
    ownHoldCancel p card s
      = if hold.origin.port = p then
          accept (.cancelled d) ((s.withDock d { s.dock d with state := .docked b }).withCard card
            (fun x => { x with holdDock := none }))
        else refuse .notPermitted s := by
  have write : s.putDockState d (.docked b) = s.withDock d { s.dock d with state := .docked b } :=
    putDock_withDock _ _ _ (by rw [hb]; rfl)
  unfold ownHoldCancel
  simp only [hc, hd, hb, write]
  rfl

/-- Settles O16, by the entry's hold and the port it came from. -/
theorem holdCancelEndsHold : Obligations.HoldCancelEndsHold := by
  unfold Obligations.HoldCancelEndsHold
  intro s p bytes card h
  constructor
  · intro noHold
    exact ⟨_, rfl, serve_refused h (ownHoldCancel_noHold noHold)⟩
  · intro c d b hold hc hd hb
    have own := ownHoldCancel_held (s := s.endRequest p (bytes.length + 1)) (p := p) hc hd hb
    constructor
    · intro other
      exact ⟨_, rfl, serve_refused h (own.trans (if_neg other))⟩
    · intro same
      obtain ⟨answered, ends, kept, -⟩ := serve_accepted h rfl (own.trans (if_pos same)) (.of_ports rfl)
      exact ⟨_, rfl, answered, kept, endsAs_congr ends rfl⟩

end Sys2Proof.Machine.RideLaws
end

section
/-! PROOFS. What a fault report does outside the fault table, and what the table then reads (R87 to R97). -/

namespace Sys2Proof.Machine.RideLaws

open Sys2Proof.Machine.Laws

/-! ## Docks and cards set free -/

/-- From `s` to `t` commands left the queue at most, card entries lost a hold dock, an in-flight dock or neither, and
notices were set at most. -/
structure Freed (t s : State) : Prop where
  queue : ∀ c ∈ t.rail.queue, c ∈ s.rail.queue
  cards : ∀ n c, t.card n = some c → ∃ x, s.card n = some x ∧ (x.holdDock = none → c.holdDock = none)
    ∧ (x.inFlight = none → c.inFlight = none)
  ports : PortsGrow t s

theorem Freed.refl (s : State) : Freed s s := ⟨fun _ h => h, fun _ c h => ⟨c, h, fun q => q, fun q => q⟩, .refl s⟩

theorem Freed.trans {t u s : State} (h1 : Freed t u) (h2 : Freed u s) : Freed t s where
  queue c h := h2.queue c (h1.queue c h)
  cards n c h := by
    obtain ⟨x, hx, hold, flight⟩ := h1.cards n c h
    obtain ⟨y, hy, hold', flight'⟩ := h2.cards n x hx
    exact ⟨y, hy, fun q => hold (hold' q), fun q => flight (flight' q)⟩
  ports := h1.ports.trans h2.ports

/-- Only the queue, the cards and the port units count. -/
theorem Freed.of_parts {t s : State} (rail : t.rail.queue = s.rail.queue) (cards : t.cards = s.cards)
    (ports : PortsGrow t s) : Freed t s :=
  ⟨fun _ h => rail ▸ h, fun n c h => ⟨c, card_congr cards n ▸ h, fun q => q, fun q => q⟩, ports⟩

theorem freed_modifyCard (s : State) (n : Nat) (f : CardEntry → CardEntry) (number : ∀ c, (f c).number = c.number)
    (hold : ∀ c, c.holdDock = none → (f c).holdDock = none)
    (flight : ∀ c, c.inFlight = none → (f c).inFlight = none) : Freed (s.modifyCard n f) s := by
  refine ⟨fun _ h => h, fun m c h => ?_, .of_ports rfl⟩
  by_cases hm : m = n
  · subst hm
    rw [modifyCard_card_self _ _ _ number, Option.map_eq_some_iff] at h
    obtain ⟨x, hx, rfl⟩ := h
    exact ⟨x, hx, hold x, flight x⟩
  · rw [modifyCard_card_ne _ _ number hm] at h
    exact ⟨c, h, fun q => q, fun q => q⟩

theorem freed_outcome (s : State) (p : RiderPort) (kind : OutcomeKind) (card : Nat) (d : DockNo) :
    Freed (s.outcome p kind card d) s := .of_parts (congrArg Rail.queue (outcome_rail ..)) (outcome_cards ..) (outcome_grows ..)

theorem freed_append (s : State) (body : RecordBody) : Freed (s.append body) s := by
  have cards : (s.append body).cards = s.cards
      ∨ ∃ n, (s.append body).cards = (s.modifyCard n (fun c => { c with refCount := c.refCount + 1 })).cards := by
    rw [append_cards]
    cases body.card? with
    | none => exact .inl rfl
    | some n => exact .inr ⟨n, rfl⟩
  rcases cards with e | ⟨n, e⟩
  · exact .of_parts rfl e (append_grows ..)
  · have counted := freed_modifyCard s n (fun c => { c with refCount := c.refCount + 1 }) (fun _ => rfl)
      (fun _ q => q) (fun _ q => q)
    exact ⟨fun _ h => h, fun m c h => counted.cards m c (card_congr e m ▸ h), append_grows ..⟩

theorem freed_appendIfRoom (s : State) (body : RecordBody) : Freed (s.appendIfRoom body) s := by
  rcases appendIfRoom_cases s body with e | e <;> rw [e]
  · exact .refl s
  · exact freed_append ..

theorem freed_putDock (s : State) (d : DockNo) (x : Dock) : Freed (s.putDock d x) s := by
  refine ⟨fun c h => ?_, fun n c h => ⟨c, h, fun q => q, fun q => q⟩, .of_ports rfl⟩
  unfold State.putDock Rail.putDock at h
  dsimp only at h
  split at h
  · exact (List.mem_filter.1 h).1
  · exact h

theorem freed_clearHoldDock (s : State) (n : Nat) : Freed (s.clearHoldDock n) s :=
  freed_modifyCard s n _ (fun _ => rfl) (fun _ _ => rfl) (fun _ q => q)

theorem freed_clearInFlight (s : State) (n : Nat) : Freed (s.clearInFlight n) s :=
  freed_modifyCard s n _ (fun _ => rfl) (fun _ q => q) (fun _ _ => rfl)

theorem clearHoldDock_card_self (s : State) (n : Nat) :
    (s.clearHoldDock n).card n = (s.card n).map (fun c => { c with holdDock := none }) :=
  modifyCard_card_self _ _ _ (fun _ => rfl)

theorem clearInFlight_card_self (s : State) (n : Nat) :
    (s.clearInFlight n).card n = (s.card n).map (fun c => { c with inFlight := none }) :=
  modifyCard_card_self _ _ _ (fun _ => rfl)

theorem freed_loseHold (s : State) (d : DockNo) (h : HoldRecord) (cause : LossCause) : Freed (s.loseHold d h cause) s :=
  (freed_outcome ..).trans (freed_clearHoldDock ..)

theorem freed_endLapsed (s : State) (d : DockNo) (r : ReleaseRecord) (reason : LapseReason) :
    Freed (s.endLapsed d r reason) s :=
  (freed_outcome ..).trans ((freed_clearInFlight ..).trans (.of_parts rfl rfl (.of_ports rfl)))

/-- An unfetched opening command that its owner gives up leaves the queue (R9). -/
theorem freed_giveUp_unfetched (s : State) (o : OpenOwner) : Freed (s.giveUp o false) s :=
  ⟨fun _ h => (List.mem_filter.1 h).1, fun _ c h => ⟨c, h, fun q => q, fun q => q⟩, .of_ports rfl⟩

theorem freed_lapse_unfetched (s : State) (d : DockNo) (b : DockedBike) {r : ReleaseRecord} (reason : LapseReason)
    (unfetched : r.fetched = false) : Freed (s.lapseRelease d b r reason) s := by
  unfold State.lapseRelease
  rw [unfetched]
  exact (freed_endLapsed ..).trans ((freed_putDock ..).trans (freed_giveUp_unfetched ..))

theorem freed_quarantineDock (bike : Nat) (s : State) (d : DockNo) : Freed (s.quarantineDock bike d) s := by
  unfold State.quarantineDock
  split
  · split
    · exact (freed_loseHold ..).trans (freed_putDock ..)
    · exact .refl s
  · split
    · rename_i lapses
      exact freed_lapse_unfetched _ _ _ _ lapses.2
    · exact .refl s
  all_goals exact .refl s

theorem freed_quarantines (bike : Nat) (l : List DockNo) (s : State) :
    Freed (l.foldl (State.quarantineDock bike) s) s :=
  foldl_invariant _ (fun u => Freed u s) (fun u d hu => (freed_quarantineDock bike u d).trans hu) l s (.refl s)

/-! ## The hold and the release that a quarantine ends (R33, R39) -/

/-- A quarantine meets each dock once, as it stood when the event began. -/
theorem quarantineDocks_meets (bike : Nat) (s : State) (d : DockNo) :
    ∃ v : State, v.dock d = s.dock d ∧ Freed (s.quarantineDocks bike) (v.quarantineDock bike d) := by
  obtain ⟨before, after, parts⟩ := List.append_of_mem (mem_allDocks d)
  have nodup := allDocks_nodup
  rw [parts, List.nodup_append] at nodup
  obtain ⟨once, -, apart⟩ := nodup
  refine ⟨before.foldl (State.quarantineDock bike) s, ?_, ?_⟩
  · rw [foldl_dock _ (fun _ x => x.quarantinedFor bike) (quarantineDock_dock_self bike)
      (fun _ _ _ h => quarantineDock_dock_ne bike _ h) before once s d, if_neg]
    exact fun h => apart d h d List.mem_cons_self rfl
  · unfold State.quarantineDocks
    rw [parts, List.foldl_append, List.foldl_cons]
    exact freed_quarantines ..

/-- A hold on a quarantined bike is lost (R39). -/
theorem quarantineDocks_held {bike : Nat} {s : State} {d : DockNo} {b : DockedBike} {h : HoldRecord}
    (hst : (s.dock d).state = .held b h) (hb : b.bike = bike) :
    (s.quarantineDocks bike).notified h.origin.port .holdLost
      ∧ ∀ c, (s.quarantineDocks bike).card h.card = some c → c.holdDock = none := by
  obtain ⟨v, hv, freed⟩ := quarantineDocks_meets bike s d
  have lost : v.quarantineDock bike d = (v.putDockState d (.docked b)).loseHold d h .quarantined := by
    unfold State.quarantineDock
    rw [hv, hst]
    exact if_pos hb
  rw [lost] at freed
  refine ⟨freed.ports.notified (outcome_notified ..), fun c hc => ?_⟩
  obtain ⟨x, hx, hold, -⟩ := freed.cards _ c hc
  have cleared : (((v.putDockState d (.docked b)).clearHoldDock h.card)).card h.card = some x := by
    rw [← hx, State.loseHold, outcome_card]
  rw [clearHoldDock_card_self, Option.map_eq_some_iff] at cleared
  obtain ⟨y, -, rfl⟩ := cleared
  exact hold rfl

/-- An unfetched release of a quarantined bike lapses and its UNLOCK is withdrawn (R33). -/
theorem quarantineDocks_unlocking {bike : Nat} {s : State} {d : DockNo} {b : DockedBike} {r : ReleaseRecord}
    (hst : (s.dock d).state = .unlocking b r) (hb : b.bike = bike) (unfetched : r.fetched = false) :
    (s.quarantineDocks bike).notified r.origin.port .releaseLapsed
      ∧ (∀ token, .unlock d token ∉ (s.quarantineDocks bike).rail.queue)
      ∧ ∀ c, (s.quarantineDocks bike).card r.card = some c → c.inFlight = none := by
  obtain ⟨v, hv, freed⟩ := quarantineDocks_meets bike s d
  have lapsed : v.quarantineDock bike d
      = ((v.giveUp (.release d) false).putDockState d (.docked b)).endLapsed d r .quarantined := by
    unfold State.quarantineDock
    rw [hv, hst]
    refine (if_pos ⟨hb, unfetched⟩).trans ?_
    rw [State.lapseRelease, unfetched]
  rw [lapsed] at freed
  refine ⟨freed.ports.notified (outcome_notified ..), fun token mem => ?_, fun c hc => ?_⟩
  · have left := ((freed_endLapsed ..).trans (freed_putDock ..)).queue _ (freed.queue _ mem)
    have owned := (List.mem_filter.1 left).2
    simp [Command.ownedBy] at owned
  · obtain ⟨x, hx, -, flight⟩ := freed.cards _ c hc
    have cleared : State.card (State.clearInFlight r.card
        (((v.giveUp (.release d) false).putDockState d (.docked b)).unreserve 1)) r.card = some x := by
      rw [← hx, State.endLapsed, outcome_card]
    rw [clearInFlight_card_self, Option.map_eq_some_iff] at cleared
    obtain ⟨y, -, rfl⟩ := cleared
    exact flight rfl

/-! ## The journal through a quarantine -/

/-- A quarantine frees reservations of the journal and writes nothing else of it (R33, R141). -/
theorem quarantineDocks_journal (bike : Nat) (s : State) :
    ∃ n ≤ s.journal.reserved, (s.quarantineDocks bike).journal = { s.journal with reserved := n } := by
  refine foldl_invariant (State.quarantineDock bike)
    (fun u => ∃ n ≤ s.journal.reserved, u.journal = { s.journal with reserved := n }) ?_ allDocks s ⟨_, Nat.le_refl _, rfl⟩
  rintro u d ⟨n, hn, hu⟩
  have one : (u.quarantineDock bike d).journal = u.journal
      ∨ (u.quarantineDock bike d).journal = { u.journal with reserved := u.journal.reserved - 1 } := by
    unfold State.quarantineDock
    split
    · split
      · exact .inl (outcome_journal ..)
      · exact .inl rfl
    · split
      · rename_i lapses
        rw [State.lapseRelease, lapses.2]
        exact .inr (outcome_journal ..)
      · exact .inl rfl
    all_goals exact .inl rfl
  rcases one with e | e
  · exact ⟨n, hn, e.trans hu⟩
  · refine ⟨n - 1, by omega, ?_⟩
    rw [e, hu]

/-- Slots free stay free when reservations end. -/
theorem free_of_reserved_le (j : Journal) {n : Nat} (h : n ≤ j.reserved) : j.free ≤ ({ j with reserved := n } : Journal).free := by
  unfold Journal.free Journal.heldSlots Journal.lastSeq
  dsimp only
  split
  · exact Nat.le_refl _
  · omega

end Sys2Proof.Machine.RideLaws
end

section
/-! PROOFS. A report taken, said once for the reports of REPORT_FAULT and of TOKEN_REPORT, and REPORT_FAULT (R87 to R97). -/

namespace Sys2Proof.Machine.RideLaws

open Sys2Proof.Machine.Laws

/-! ## A report taken -/

/-- Whether a report starts a quarantine (R92). -/
def startsQuarantine (s : State) (r : Report) (p : Place) : Bool :=
  r.quarantines s.time.config.threshold (r.scoreOn s.stamp p.entry)

/-- The fault entry a report leaves (R91, R92). -/
def reportedEntry (s : State) (r : Report) (p : Place) : FaultEntry :=
  p.entry.scored r.category r.source r.card s.stamp s.time.config.threshold

/-- The station once a report is scored, and its notices are set where a quarantine starts. -/
def scoredStation (s : State) (r : Report) (p : Place) : State :=
  { s with faults := putFault (reportedEntry s r p) p.faults }

/-- The station once a report is scored, judged and acted on, its record not yet made (R97). -/
def actedOn (s : State) (r : Report) (p : Place) : State :=
  if startsQuarantine s r p then
    State.quarantineDocks r.bike (((scoredStation s r p).notify .service .quarantine).notify .uplink .quarantine)
  else scoredStation s r p

theorem takeReport_actedOn (s : State) (r : Report) (p : Place) :
    s.takeReport r p
      = (actedOn s r p).appendIfRoom (r.record (reportedEntry s r p).score (reportedEntry s r p).quarantined) := by
  have entry : ({ r.scoreOn s.stamp p.entry with
      quarantined := (r.scoreOn s.stamp p.entry).quarantined || startsQuarantine s r p } : FaultEntry)
      = reportedEntry s r p := scoreOn_scored ..
  have score := congrArg FaultEntry.score entry
  have quarantined := congrArg FaultEntry.quarantined entry
  unfold State.takeReport actedOn scoredStation
  dsimp only at score quarantined ⊢
  rw [← score, ← quarantined, ← entry]
  rfl

/-- What a report does outside the fault table: `starts` says whether its bike's quarantine starts (R93, R97). -/
structure Reported (u s : State) (r : Report) (starts : Bool) (score : Nat) (quarantined : Bool) : Prop where
  docks : ∀ e, u.dock e = if starts then (s.dock e).quarantinedFor r.bike else s.dock e
  freed : Freed u s
  told : starts = true → u.notified .service .quarantine ∧ u.notified .uplink .quarantine
  recorded : 1 ≤ s.freeSlots → u.journal.records = s.journal.records ++
    [⟨s.journal.nextSeq, s.stamp, r.record score quarantined⟩]
  unrecorded : s.freeSlots = 0 → starts = false → u.journal.records = s.journal.records
  still : starts = false → u.rides = s.rides ∧ u.journal.reserved = s.journal.reserved
  settled : u.rides.settled = s.rides.settled
  kept : u.fares = s.fares ∧ u.vans = s.vans ∧ u.time = s.time
  held : starts = true → ∀ d b h, (s.dock d).state = .held b h → b.bike = r.bike →
    u.notified h.origin.port .holdLost ∧ ∀ c, u.card h.card = some c → c.holdDock = none
  lapsed : starts = true → ∀ d b x, (s.dock d).state = .unlocking b x → b.bike = r.bike → x.fetched = false →
    u.notified x.origin.port .releaseLapsed ∧ (∀ token, .unlock d token ∉ u.rail.queue)
      ∧ ∀ c, u.card x.card = some c → c.inFlight = none

/-- A quarantine writes nothing of the plans, the jobs and the timebase, and settles no ride. -/
theorem quarantineDocks_kept (bike : Nat) (s : State) :
    (s.quarantineDocks bike).fares = s.fares ∧ (s.quarantineDocks bike).vans = s.vans
      ∧ (s.quarantineDocks bike).time = s.time ∧ (s.quarantineDocks bike).rides.settled = s.rides.settled := by
  have outcome : ∀ (u : State) p kind card d, (u.outcome p kind card d).rides.settled = u.rides.settled := by
    intro u p kind card d
    cases p <;> rfl
  unfold State.quarantineDocks
  refine foldl_invariant (State.quarantineDock bike)
    (fun u => u.fares = s.fares ∧ u.vans = s.vans ∧ u.time = s.time ∧ u.rides.settled = s.rides.settled) ?_ allDocks s
    ⟨rfl, rfl, rfl, rfl⟩
  rintro u d ⟨fares, vans, time, settled⟩
  unfold State.quarantineDock
  split
  · split
    · simpa [State.loseHold, outcome] using And.intro fares ⟨vans, time, settled⟩
    · exact ⟨fares, vans, time, settled⟩
  · split
    · simpa [State.lapseRelease, State.endLapsed, outcome] using And.intro fares ⟨vans, time, settled⟩
    · exact ⟨fares, vans, time, settled⟩
  all_goals exact ⟨fares, vans, time, settled⟩

theorem actedOn_still {s : State} {r : Report} {p : Place} (h : startsQuarantine s r p = false) :
    actedOn s r p = scoredStation s r p := by
  rw [actedOn, h]
  rfl

/-- The two notices of a quarantine that starts (R93). -/
def toldStation (s : State) (r : Report) (p : Place) : State :=
  ((scoredStation s r p).notify .service .quarantine).notify .uplink .quarantine

theorem actedOn_starts {s : State} {r : Report} {p : Place} (h : startsQuarantine s r p = true) :
    actedOn s r p = (toldStation s r p).quarantineDocks r.bike := if_pos h

theorem toldStation_grows (s : State) (r : Report) (p : Place) : PortsGrow (toldStation s r p) s :=
  ((notify_grows ..).trans (notify_grows ..)).trans (.of_ports rfl)

theorem toldStation_notified (s : State) (r : Report) (p : Place) :
    (toldStation s r p).notified .service .quarantine ∧ (toldStation s r p).notified .uplink .quarantine :=
  ⟨(notify_grows ..).notified (notify_notified ..), notify_notified ..⟩

theorem actedOn_freed (s : State) (r : Report) (p : Place) : Freed (actedOn s r p) s := by
  cases h : startsQuarantine s r p
  · rw [actedOn_still h]
    exact .of_parts rfl rfl (.of_ports rfl)
  · rw [actedOn_starts h]
    exact (freed_quarantines ..).trans (.of_parts rfl rfl (toldStation_grows ..))

theorem actedOn_journal (s : State) (r : Report) (p : Place) :
    ∃ n ≤ s.journal.reserved, (actedOn s r p).journal = { s.journal with reserved := n } := by
  cases h : startsQuarantine s r p
  · rw [actedOn_still h]
    exact ⟨_, Nat.le_refl _, rfl⟩
  · rw [actedOn_starts h]
    exact quarantineDocks_journal r.bike (toldStation s r p)

theorem actedOn_dock (s : State) (r : Report) (p : Place) (e : DockNo) :
    (actedOn s r p).dock e
      = if startsQuarantine s r p then (s.dock e).quarantinedFor r.bike else s.dock e := by
  cases h : startsQuarantine s r p
  · rw [actedOn_still h]
    rfl
  · rw [actedOn_starts h, quarantineDocks_dock]
    rfl

theorem actedOn_kept (s : State) (r : Report) (p : Place) :
    (actedOn s r p).fares = s.fares ∧ (actedOn s r p).vans = s.vans ∧ (actedOn s r p).time = s.time
      ∧ (actedOn s r p).rides.settled = s.rides.settled := by
  cases h : startsQuarantine s r p
  · rw [actedOn_still h]
    exact ⟨rfl, rfl, rfl, rfl⟩
  · rw [actedOn_starts h]
    exact quarantineDocks_kept r.bike (toldStation s r p)

/-- A report taken does what R93 and R97 say of it. -/
theorem takeReport_reported (s : State) (r : Report) (p : Place) :
    Reported (s.takeReport r p) s r (startsQuarantine s r p) (reportedEntry s r p).score
      (reportedEntry s r p).quarantined := by
  have made := freed_appendIfRoom (actedOn s r p)
    (r.record (reportedEntry s r p).score (reportedEntry s r p).quarantined)
  obtain ⟨n, hn, journal⟩ := actedOn_journal s r p
  obtain ⟨fares, vans, time, settled⟩ := actedOn_kept s r p
  rw [takeReport_actedOn]
  refine ⟨fun e => ?_, made.trans (actedOn_freed ..), fun h => ?_, fun room => ?_, fun full h => ?_, fun h => ?_, ?_, ?_,
    fun h d b hold hst hb => ?_, fun h d b x hst hb unfetched => ?_⟩
  · rw [appendIfRoom_dock, actedOn_dock]
  · rw [actedOn_starts h] at made ⊢
    obtain ⟨service, uplink⟩ := toldStation_notified s r p
    have grown := made.ports.trans (freed_quarantines r.bike allDocks (toldStation s r p)).ports
    exact ⟨grown.notified service, grown.notified uplink⟩
  · have free : (r.record (reportedEntry s r p).score (reportedEntry s r p).quarantined).slots
        ≤ (actedOn s r p).freeSlots := by
      rw [State.freeSlots, journal]
      exact Nat.le_trans room (free_of_reserved_le s.journal hn)
    rw [appendIfRoom_of_room free, append_journal, journal, stamp_congr time]
  · rw [actedOn_still h, appendIfRoom_of_full (s := scoredStation s r p) (by
      show s.freeSlots < 1
      omega)]
    rfl
  · rw [actedOn_still h]
    rcases appendIfRoom_cases (scoredStation s r p)
      (r.record (reportedEntry s r p).score (reportedEntry s r p).quarantined) with e | e <;> rw [e] <;> exact ⟨rfl, rfl⟩
  · rw [appendIfRoom_rides, settled]
  · exact ⟨(appendIfRoom_fares ..).trans fares, (appendIfRoom_vans ..).trans vans, (appendIfRoom_time ..).trans time⟩
  · rw [actedOn_starts h] at made ⊢
    obtain ⟨lost, cleared⟩ := quarantineDocks_held (s := toldStation s r p) hst hb
    refine ⟨made.ports.notified lost, fun c hc => ?_⟩
    obtain ⟨x, hx, freed, -⟩ := made.cards _ c hc
    exact freed (cleared x hx)
  · rw [actedOn_starts h] at made ⊢
    obtain ⟨lapsed, gone, cleared⟩ := quarantineDocks_unlocking (s := toldStation s r p) hst hb unfetched
    refine ⟨made.ports.notified lapsed, fun token mem => gone token (made.queue _ mem), fun c hc => ?_⟩
    obtain ⟨y, hy, -, freed⟩ := made.cards _ c hc
    exact freed (cleared y hy)

end Sys2Proof.Machine.RideLaws
end

section
/-! PROOFS. The fault table after a report, and REPORT_FAULT (R85 to R97). -/

namespace Sys2Proof.Machine.RideLaws

open Sys2Proof.Machine.Laws

/-! ## The fault table after a report -/

theorem duplicate_eq (r : Report) (e : FaultEntry) :
    r.duplicate e = (r.card.isSome && e.reports.any (fun x => x.card == r.card && x.category == r.category)) := by
  unfold Report.duplicate
  cases r.card <;> simp

theorem startsQuarantine_eq (s : State) (r : Report) (p : Place) :
    startsQuarantine s r p
      = (!p.entry.quarantined
          && (decide (r.source = .service) || decide (s.time.config.threshold ≤ (reportedEntry s r p).score))) := by
  have score : (r.scoreOn s.stamp p.entry).score = (reportedEntry s r p).score :=
    (congrArg FaultEntry.score (scoreOn_scored r s.stamp s.time.config.threshold p.entry) :)
  rw [← score]
  rfl

theorem reportedEntry_quarantined (s : State) (r : Report) (p : Place) :
    (reportedEntry s r p).quarantined = (p.entry.quarantined || startsQuarantine s r p) := by
  rw [startsQuarantine_eq]
  show (p.entry.quarantined || decide (r.source = .service) || decide (_ ≤ (reportedEntry s r p).score)) = _
  cases p.entry.quarantined <;> simp

/-- The entry a report is scored on is its bike's (R90). -/
theorem scoresOn_bike {s : State} {bike : Nat} {old : FaultEntry} {created : Bool} {replaced : Option Nat}
    (h : s.scoresOn bike old created replaced) : old.bike = bike := by
  rcases h with ⟨found, -⟩ | ⟨-, -, fresh, -⟩
  · exact findFault_bike found
  · rw [fresh]

/-- The entry replaced is another bike's (R95). -/
theorem scoresOn_replaced_ne {s : State} {bike : Nat} {old : FaultEntry} {created : Bool} {replaced : Option Nat}
    (h : s.scoresOn bike old created replaced) {x : Nat} (hx : replaced = some x) : x ≠ bike := by
  rintro rfl
  rcases h with ⟨-, -, stays⟩ | ⟨absent, -, -, ⟨-, stays⟩ | ⟨-, e, mem, -, named, -⟩⟩
  · cases stays.symm.trans hx
  · cases stays.symm.trans hx
  · have other := List.find?_eq_none.1 absent e mem
    exact other (beq_iff_eq.2 (Option.some.inj (hx.symm.trans named)).symm)

theorem findFault_left (replaced : Option Nat) (n : Nat) (faults : List FaultEntry) :
    findFault n (faults.filter (fun e => decide (replaced ≠ some e.bike)))
      = if replaced = some n then none else findFault n faults := by
  induction faults with
  | nil => simp [findFault]
  | cons e es ih =>
    by_cases gone : replaced = some e.bike
    · rw [List.filter_cons_of_neg (by simp [gone]), ih, findFault_cons]
      by_cases hn : e.bike = n
      · simp [gone, hn]
      · rw [if_neg hn]
    · rw [List.filter_cons_of_pos (by simpa using gone), findFault_cons, findFault_cons, ih]
      by_cases hn : e.bike = n
      · subst hn
        rw [if_pos rfl, if_neg gone, if_pos rfl]
      · rw [if_neg hn, if_neg hn]

/-- The place of a report that has one, with the fault table it leaves. -/
theorem takeReport_fault {s : State} {bike : Nat} {old : FaultEntry} {created : Bool} {replaced : Option Nat}
    (h : s.scoresOn bike old created replaced) {faults : List FaultEntry}
    (place : s.placeReport bike = some ⟨old, faults, created, replaced⟩) (r : Report) (x : Nat) :
    (s.takeReport r ⟨old, faults, created, replaced⟩).fault x
      = if x = bike then some (reportedEntry s r ⟨old, faults, created, replaced⟩)
        else if replaced = some x then none else s.fault x := by
  have written : (s.takeReport r ⟨old, faults, created, replaced⟩).faults
      = putFault (reportedEntry s r ⟨old, faults, created, replaced⟩) faults :=
    (congrArg State.faults (takeReport_effects s r ⟨old, faults, created, replaced⟩) :)
  have bikes : (reportedEntry s r ⟨old, faults, created, replaced⟩).bike = bike := (scoresOn_bike h :)
  have left : faults = s.faults.filter (fun e => decide (replaced ≠ some e.bike)) := (placeReport_scoresOn place).2
  rw [State.fault, written, findFault_putFault, bikes, left, findFault_left]
  simp only [eq_comm]
  rfl

/-! ## The port units beside a report -/

theorem quarantineEffect_ports (s v : State) (units units' : PortUnits) (bike : Nat) (d : DockNo) :
    State.quarantineEffect { s with ports := units } bike { v with ports := units' } d
      = { s.quarantineEffect bike v d with ports := units' } := by
  unfold State.quarantineEffect
  rw [show State.dock { s with ports := units } d = s.dock d from rfl]
  cases (s.dock d).state <;> dsimp only
  case held b h =>
    split
    · obtain ⟨_, _, origin⟩ := h
      cases origin <;> rfl
    · rfl
  case unlocking b r =>
    split
    · obtain ⟨_, _, _, _, _, origin⟩ := r
      cases origin <;> rfl
    · rfl

theorem quarantineEffects_ports (s : State) (units : PortUnits) (bike : Nat) :
    State.quarantineEffects { s with ports := units } bike = { s.quarantineEffects bike with ports := units } := by
  have walk : ∀ (l : List DockNo) (v : State),
      l.foldl (State.quarantineEffect { s with ports := units } bike) { v with ports := units }
        = { l.foldl (s.quarantineEffect bike) v with ports := units } := by
    intro l
    induction l with
    | nil => exact fun _ => rfl
    | cons d ds ih =>
      intro v
      rw [List.foldl_cons, quarantineEffect_ports, ih]
      rfl
  exact walk _ s

/-- What a report does outside the fault table reads nothing of the port units. -/
theorem reportEffects_ports (s : State) (units : PortUnits) (starts : Bool) (bike : Nat) (dock : Option DockNo)
    (category : Category) (source : Port) (card : Option Nat) (score : Nat) (quarantined : Bool) :
    State.reportEffects { s with ports := units } starts bike dock category source card score quarantined
      = { s.reportEffects starts bike dock category source card score quarantined with ports := units } := by
  have acted : (if starts then State.quarantineEffects { s with ports := units } bike else { s with ports := units })
      = { (if starts then s.quarantineEffects bike else s) with ports := units } := by
    cases starts
    · rfl
    · exact quarantineEffects_ports ..
  unfold State.reportEffects
  rw [acted]
  generalize (if starts then s.quarantineEffects bike else s) = v
  dsimp only
  rw [show State.freeSlots { v with ports := units } = v.freeSlots from rfl]
  split
  · cases card <;> rfl
  · rfl

/-! ## REPORT_FAULT -/

theorem categoryAllowed_eq (p : Port) (c : Category) :
    categoryAllowed p c = ((decide (p = .terminal) && c.rider) || (decide (p = .service) && c.crew)) := by
  cases p <;> simp [categoryAllowed]

/-- A report has no place where a check of the whole table says so (R96). -/
theorem placeReport_none_iff (s : State) (n : Nat) :
    s.placeReport n = none
      ↔ ((s.fault n).isNone && decide (128 ≤ s.faults.length) && s.faults.all (fun e => e.quarantined)) = true := by
  rw [placeReport_eq_none]
  simp [State.faultsQuarantined, and_assoc]

/-- The report that a request makes. -/
def requestedReport (p : Port) (req : ReportReq) (bike : Nat) : Report :=
  { bike := bike, dock := req.dock, category := req.category, source := p, card := req.card }

section Request

variable {s : State} {p : Port} {req : ReportReq} (allowed : categoryAllowed p req.category = true)
include allowed

theorem ownReportFault_noBike {reason : RefusalReason} (h : s.reportedBike req = .error reason) :
    ownReportFault p req s = refuse reason s := by
  rw [ownReportFault, if_pos allowed, h]
  rfl

variable {bike : Nat} (found : s.reportedBike req = .ok bike)
include found

/-- In RESERVE a rider's report is refused (R88). -/
theorem ownReportFault_reserve (h : p = .terminal ∧ s.journal.mode = .reserve) :
    ownReportFault p req s = refuse .journalReserve s := by
  rw [ownReportFault, if_pos allowed, found]
  exact if_pos h

variable (room : ¬ (p = .terminal ∧ s.journal.mode = .reserve))
include room

theorem ownReportFault_noPlace (h : s.placeReport bike = none) : ownReportFault p req s = refuse .tableFull s := by
  rw [ownReportFault, if_pos allowed, found]
  refine (if_neg room).trans ?_
  rw [h]

theorem ownReportFault_accepted {place : Place} (h : s.placeReport bike = some place) :
    ownReportFault p req s
      = accept (.faultReported bike (!(requestedReport p req bike).duplicate place.entry)
          (place.entry.quarantined || startsQuarantine s (requestedReport p req bike) place) place.created
          (reportedEntry s (requestedReport p req bike) place).score place.replaced)
        (s.takeReport (requestedReport p req bike) place) := by
  have score : ((requestedReport p req bike).scoreOn s.stamp place.entry).score
      = (reportedEntry s (requestedReport p req bike) place).score :=
    (congrArg FaultEntry.score (scoreOn_scored _ s.stamp s.time.config.threshold place.entry) :)
  rw [ownReportFault, if_pos allowed, found, ← score]
  refine (if_neg room).trans ?_
  rw [h]
  rfl

end Request

/-- The first check of REPORT_FAULT that fails is the refusal's reason (R87, R88); `named` is the bike that the request
names, itself or by its dock. -/
theorem ownReportFault_refused {s : State} {p : Port} {req : ReportReq} {named : Option Nat}
    (byBike : ∀ n, req.bike = some n → named = some n)
    (byDock : ∀ d, req.bike = none → req.dock = some d → named = (s.dock d).state.bike?.map (fun b => b.bike))
    {reason : RefusalReason}
    (h : firstFailing
      [(!((decide (p = .terminal) && req.category.rider) || (decide (p = .service) && req.category.crew)),
          RefusalReason.notPermitted),
       (req.bike.isSome == req.dock.isSome, .outOfRange), (named.isNone, .dockState),
       (decide (p = .terminal) && decide (s.journal.mode = .reserve), .journalReserve),
       (named.any (fun n => (s.fault n).isNone && decide (128 ≤ s.faults.length)
          && s.faults.all (fun e => e.quarantined)), .tableFull)] = some reason) :
    ownReportFault p req s = refuse reason s := by
  rw [← categoryAllowed_eq] at h
  cases allowed : categoryAllowed p req.category
  · simp only [firstFailing, allowed, Bool.not_false, if_true, Option.some.injEq] at h
    subst h
    rw [ownReportFault, allowed]
    rfl
  · have later : ∀ n, named = some n → s.reportedBike req = .ok n →
        firstFailing [(decide (p = .terminal) && decide (s.journal.mode = .reserve), .journalReserve),
          (named.any (fun n => (s.fault n).isNone && decide (128 ≤ s.faults.length)
            && s.faults.all (fun e => e.quarantined)), .tableFull)] = some reason →
        ownReportFault p req s = refuse reason s := by
      intro n hn found rest
      subst hn
      by_cases reserve : p = .terminal ∧ s.journal.mode = .reserve
      · simp only [firstFailing, reserve, decide_true, Bool.and_self, if_true, Option.some.injEq] at rest
        subst rest
        exact ownReportFault_reserve allowed found reserve
      · have pass : (decide (p = .terminal) && decide (s.journal.mode = .reserve)) = false := by simpa using reserve
        simp only [firstFailing, pass, Bool.false_eq_true, if_false, Option.any_some] at rest
        split at rest
        · rename_i full
          cases rest
          exact ownReportFault_noPlace allowed found reserve ((placeReport_none_iff s n).2 full)
        · cases rest
    cases hb : req.bike with
    | some n =>
      cases hd : req.dock with
      | some d =>
        simp only [firstFailing, allowed, hb, hd, Option.isSome_some, beq_self_eq_true, Bool.not_true, Bool.false_eq_true,
          if_false, if_true, Option.some.injEq] at h
        subst h
        exact ownReportFault_noBike allowed (by rw [State.reportedBike, hb, hd])
      | none =>
        have hn := byBike n hb
        refine later n hn (by rw [State.reportedBike, hb, hd]) ?_
        simpa [firstFailing, allowed, hb, hd, hn] using h
    | none =>
      cases hd : req.dock with
      | some d =>
        have hn := byDock d hb hd
        cases hbike : (s.dock d).state.bike? with
        | none =>
          rw [hbike] at hn
          simp [firstFailing, allowed, hb, hd, hn] at h
          subst h
          exact ownReportFault_noBike allowed (by simp [State.reportedBike, hb, hd, hbike])
        | some b =>
          rw [hbike] at hn
          refine later b.bike hn (by simp [State.reportedBike, hb, hd, hbike]) ?_
          simpa [firstFailing, allowed, hb, hd, hn] using h
      | none =>
        simp [firstFailing, allowed, hb, hd] at h
        subst h
        exact ownReportFault_noBike allowed (by rw [State.reportedBike, hb, hd])

end Sys2Proof.Machine.RideLaws
end

section
/-! PROOFS. REPORT_FAULT settled. -/

namespace Sys2Proof.Machine.RideLaws

open Sys2Proof.Machine.Laws

/-- A report taken within a request, read off the station its event leaves. -/
theorem Reported.of_endsAs {t u s : State} {p : Port} {r : Report} {starts : Bool} {score : Nat} {quarantined : Bool}
    (h : Reported u s r starts score quarantined) (ends : t.endsAs u p)
    (notified : ∀ q k, u.notified q k → t.notified q k) :
    (∀ d, t.dock d = if starts then (s.dock d).quarantinedFor r.bike else s.dock d)
      ∧ (starts = true → t.notified .service .quarantine ∧ t.notified .uplink .quarantine)
      ∧ (1 ≤ s.freeSlots → t.journal.records = s.journal.records ++
          [⟨s.journal.nextSeq, s.stamp, r.record score quarantined⟩])
      ∧ (s.freeSlots = 0 → starts = false → t.journal.records = s.journal.records)
      ∧ (starts = false → t.rides = s.rides ∧ t.journal.reserved = s.journal.reserved)
      ∧ t.fares = s.fares ∧ t.vans = s.vans ∧ t.time = s.clocked p
      ∧ (starts = true → ∀ d b h, (s.dock d).state = .held b h → b.bike = r.bike →
          t.notified h.origin.port .holdLost ∧ ∀ c, t.card h.card = some c → c.holdDock = none)
      ∧ (starts = true → ∀ d b x, (s.dock d).state = .unlocking b x → b.bike = r.bike → x.fetched = false →
          t.notified x.origin.port .releaseLapsed ∧ (∀ token, .unlock d token ∉ t.rail.queue)
            ∧ ∀ c, t.card x.card = some c → c.inFlight = none) := by
  obtain ⟨fares, vans, time⟩ := h.kept
  refine ⟨fun d => ?_, fun q => ?_, fun q => ?_, fun q q' => ?_, fun q => ?_, ?_, ?_, ?_, fun q d b hold hst hb => ?_,
    fun q d b x hst hb hx => ?_⟩
  · rw [endsAs_dock ends, h.docks]
  · exact ⟨notified _ _ (h.told q).1, notified _ _ (h.told q).2⟩
  · rw [endsAs_records ends, h.recorded q]
  · rw [endsAs_records ends, h.unrecorded q q']
  · rw [endsAs_rides ends, endsAs_reserved ends]
    exact h.still q
  · rw [endsAs_fares ends, fares]
  · rw [endsAs_vans ends, vans]
  · rw [endsAs_time ends, State.clocked, time]
    rfl
  · obtain ⟨lost, cleared⟩ := h.held q d b hold hst hb
    exact ⟨notified _ _ lost, fun c hc => cleared c (endsAs_card ends _ ▸ hc)⟩
  · obtain ⟨lapsed, gone, cleared⟩ := h.lapsed q d b x hst hb hx
    exact ⟨notified _ _ lapsed, fun token mem => gone token (endsAs_mem_queue ends mem (fun _ => nofun)),
      fun c hc => cleared c (endsAs_card ends _ ▸ hc)⟩

/-- What a report leaves outside the fault table is `reportEffects`, whatever the port units (R97). -/
theorem reportEffects_takeReport (s : State) (units : PortUnits) (r : Report) (p : Place) :
    let effects := s.reportEffects (startsQuarantine s r p) r.bike r.dock r.category r.source r.card
      (reportedEntry s r p).score (reportedEntry s r p).quarantined
    let u := State.takeReport r p { s with ports := units }
    { effects with faults := u.faults } = { u with ports := effects.ports } := by
  intro effects u
  have e : u = { State.reportEffects { s with ports := units } (startsQuarantine s r p) r.bike r.dock r.category r.source
      r.card (reportedEntry s r p).score (reportedEntry s r p).quarantined with
      faults := putFault (reportedEntry s r p) p.faults, ports := u.ports } := takeReport_effects ..
  rw [reportEffects_ports] at e
  change u = { effects with faults := _, ports := u.ports } at e
  generalize u = v at e ⊢
  generalize v.ports = units' at e
  subst e
  rfl

/-- Settles O31: the checks in their order, and the report taken on the place found for it. -/
theorem reportScoresAndQuarantines : Obligations.ReportScoresAndQuarantines := by
  unfold Obligations.ReportScoresAndQuarantines
  intro s p bytes req h named
  constructor
  · intro reason failing
    have byBike : ∀ n, req.bike = some n → named = some n := fun n hn => by
      simp only [named, hn]
    have byDock : ∀ d, req.bike = none → req.dock = some d →
        named = (s.dock d).state.bike?.map (fun b => b.bike) := fun d hn hd => by
      simp only [named, hn, hd]
    exact ⟨_, rfl, serve_refused h (ownReportFault_refused (s := s.endRequest p _) byBike byDock failing)⟩
  · intro bike old created replaced allowed found room scores duplicate score starts
    obtain ⟨faults, place⟩ := scoresOn_placeReport scores
    let r := requestedReport p req bike
    let here : Place := ⟨old, faults, created, replaced⟩
    let s0 := s.endRequest p (bytes.length + 1)
    have taken := takeReport_reported s0 r here
    have isStarts : startsQuarantine s0 r here = starts := startsQuarantine_eq ..
    have isQuarantined : (reportedEntry s0 r here).quarantined = (old.quarantined || starts) := by
      rw [reportedEntry_quarantined, isStarts]
    have own := ownReportFault_accepted (s := s0) allowed found room place
    rw [duplicate_eq, isStarts] at own
    obtain ⟨answered, ends, kept, notified⟩ := serve_accepted h rfl own taken.freed.ports.follow
    rw [isStarts, isQuarantined] at taken
    obtain ⟨docks, told, recorded, unrecorded, still, fares, vans, time, held, lapsed⟩ := taken.of_endsAs ends notified
    have fault := fun x => (endsAs_fault ends x).trans (takeReport_fault (s := s0) scores place r x)
    refine ⟨_, rfl, answered, ?_, fun x hx hr => ?_, fun x hx => ?_, docks, told, recorded, unrecorded, still, fares, vans,
      time, kept, held, lapsed, ?_⟩
    · rw [fault, if_pos rfl, ← isQuarantined]
      rfl
    · rw [fault, if_neg hx, if_neg hr]
      rfl
    · rw [fault, if_neg (scoresOn_replaced_ne scores hx), if_pos hx]
    · refine endsAs_congr ends ?_
      rw [endsAs_faults ends, ← isQuarantined, ← isStarts]
      exact reportEffects_takeReport s s0.ports r here

end Sys2Proof.Machine.RideLaws
end

section
/-! PROOFS. A rider's return into a reserved dock: what it makes of the dock's job (R120, R125). -/

namespace Sys2Proof.Machine.RideLaws

open Sys2Proof.Machine.Laws

/-! ## A job written back -/

theorem openDocks_eq_nil {j : JobRecord} : j.openDocks = [] ↔ ∀ i ∈ j.marked, i.outcome ≠ .open := by
  have isOpen : ∀ i : MarkedItem, i.isOpen = true ↔ i.outcome = .open := fun i => by
    unfold MarkedItem.isOpen
    cases i.outcome <;> simp
  simp [JobRecord.openDocks, List.filter_eq_nil_iff, isOpen]

/-- What the journal gains when a job is written back, and how the station its event leaves stands to it (R125). -/
theorem settleJob_settles (u : State) (slot : SlotNo) (j : JobRecord) :
    ∃ rest, (u.settleJob slot j).journal.records = u.journal.records ++ rest
      ∧ ∀ (s t : State) (p : Port), u.vans = s.vans → u.time = s.time → u.journal.reserved = s.journal.reserved →
        t.endsAs (u.settleJob slot j) p → (∀ q k, (u.settleJob slot j).notified q k → t.notified q k) →
        t.settlesJob s slot j u.journal.nextSeq rest := by
  rcases settleJob_cases u slot j with ⟨none, e⟩ | ⟨some, e⟩
  · have ended := openDocks_eq_nil.1 none
    refine ⟨[⟨u.journal.nextSeq, u.stamp, .jobEnd j.endRecord⟩], by rw [e]; rfl, fun s t p vans time reserved ends notified => ?_⟩
    rw [e] at ends notified
    refine ⟨fun k hk => ?_, ?_, fun ⟨i, hi, ho⟩ => absurd ho (ended i hi), fun _ => ⟨?_, ?_, ?_, ?_, fun k => ?_⟩⟩
    · rw [job_congr (endsAs_vans ends), endJob_job_ne _ _ hk, job_congr vans]
    · rw [endsAs_vans ends, ← vans]
      rfl
    · rw [job_congr (endsAs_vans ends), endJob_job_self]
    · exact notified _ _ (endJob_notified ..)
    · rw [stamp_congr time]
      rfl
    · rw [endsAs_reserved ends, ← reserved]
      rfl
    · rw [endsAs_vans ends, ← vans]
      exact leaveClaim_claims ..
  · refine ⟨[], by rw [e, List.append_nil]; rfl, fun s t p vans _ reserved ends _ => ?_⟩
    rw [e] at ends
    refine ⟨fun k hk => ?_, ?_, fun _ => ⟨?_, rfl, ?_, ?_⟩, fun none => absurd (openDocks_eq_nil.2 none) some⟩
    · rw [job_congr (endsAs_vans ends), setJob_job_ne _ _ hk, job_congr vans]
    · rw [endsAs_vans ends, ← vans]
      rfl
    · rw [job_congr (endsAs_vans ends), setJob_job_self]
    · rw [endsAs_reserved ends, ← reserved]
      rfl
    · rw [endsAs_vans ends, ← vans]
      rfl

/-- A job written back leaves every part but the jobs, the journal and the port units. -/
theorem settleJob_kept (u : State) (slot : SlotNo) (j : JobRecord) :
    u.settleJob slot j = { u with vans := (u.settleJob slot j).vans, journal := (u.settleJob slot j).journal,
                                  ports := (u.settleJob slot j).ports }
      ∧ PortsGrow (u.settleJob slot j) u := by
  rcases settleJob_cases u slot j with ⟨_, e⟩ | ⟨_, e⟩ <;> rw [e]
  · exact ⟨rfl, endJob_grows ..⟩
  · exact ⟨rfl, .of_ports rfl⟩

/-! ## The walk beyond a job's position -/

/-- The rest of a walk beyond the position where it first stands there (R120). -/
theorem beyond_eq {s : State} {j : JobRecord} {before beyond : List DockNo}
    (walk : s.time.config.walk j.start j.direction j.walk = before ++ j.position :: beyond)
    (first : j.position ∉ before) : s.beyond j = beyond := by
  have skip : ∀ d ∈ before, (d != j.position) = true := fun d hd => by
    simpa using fun e : d = j.position => first (e ▸ hd)
  unfold State.beyond
  rw [walk, List.dropWhile_append_of_pos skip, List.dropWhile_cons_of_neg (by simp)]
  rfl

/-- A dock may be marked beyond the position exactly where it is EMPTY and verified; the returned one is neither (R120). -/
theorem deliverable_eq {s w : State} {d : DockNo} {b : DockedBike} (docked : (w.dock d).state = .docked b)
    (others : ∀ e, e ≠ d → w.dock e = s.dock e) (x : DockNo) :
    decide (x ≠ d ∧ (s.dock x).state = .empty ∧ (s.dock x).verified = true) = w.deliverable x := by
  have isEmpty : ∀ st : DockState, st.isEmpty = decide (st = .empty) := fun st => by cases st <;> simp [DockState.isEmpty]
  unfold State.deliverable
  by_cases hx : x = d
  · subst hx
    simp [docked, isEmpty]
  · simp [hx, others x hx, isEmpty]

theorem find?_congr {α : Type} {p q : α → Bool} {l : List α} (h : ∀ x ∈ l, p x = q x) : l.find? p = l.find? q := by
  induction l with
  | nil => rfl
  | cons x xs ih =>
    rw [List.find?_cons, List.find?_cons, h x List.mem_cons_self, ih (fun y hy => h y (List.mem_cons_of_mem _ hy))]

/-- What a return at a dock leaves of the station `w` that its settlement left: docks, jobs and journal alone, the dock
itself kept. -/
structure Remarked (u w : State) (d : DockNo) (rest : List Record) : Prop where
  kept : u = { w with rail := { w.rail with docks := u.rail.docks }, vans := u.vans, journal := u.journal, ports := u.ports }
  grows : PortsGrow u w
  dock : u.dock d = w.dock d
  records : u.journal.records = w.journal.records ++ rest

theorem Remarked.refl (w : State) (d : DockNo) : Remarked w w d [] := ⟨rfl, .refl w, rfl, (List.append_nil _).symm⟩

theorem settleJob_remarked {u w : State} {slot : SlotNo} {j : JobRecord} {d : DockNo} {rest : List Record}
    (h : Remarked u w d []) (records : (u.settleJob slot j).journal.records = u.journal.records ++ rest) :
    Remarked (u.settleJob slot j) w d rest := by
  obtain ⟨kept, grows⟩ := settleJob_kept u slot j
  refine ⟨?_, grows.trans h.grows, ?_, ?_⟩
  · have := h.kept
    generalize u.settleJob slot j = v at kept ⊢
    generalize v.vans = a at kept
    generalize v.journal = b at kept
    generalize v.ports = c at kept
    subst kept
    generalize u.rail.docks = a' at this
    generalize u.vans = b' at this
    generalize u.journal = c' at this
    generalize u.ports = d' at this
    subst this
    rfl
  · rw [← h.dock, kept]
    rfl
  · rw [records, h.records, List.append_nil]

/-- A reserved dock is marked in an EMPTY one's place. -/
theorem reserve_remarked {w : State} {x d : DockNo} (number : Nat) (empty : (w.dock x).state = .empty) (ne : d ≠ x) :
    Remarked (w.putDockState x (.vanReserved number)) w d [] := by
  have write : w.putDockState x (.vanReserved number) = w.withDock x { w.dock x with state := .vanReserved number } :=
    putDock_withDock _ _ _ (by rw [empty]; rfl)
  refine ⟨?_, .of_ports rfl, putDockState_dock_ne _ _ ne, (List.append_nil _).symm⟩
  rw [write]
  rfl

/-- Where the station agrees with `w` but for the docked bike, the return does to the dock's job what R120 says. -/
theorem remark_remarks (w : State) (number : Nat) {d : DockNo} {b : DockedBike} (docked : (w.dock d).state = .docked b) :
    ∃ rest, Remarked (w.remark number d) w d rest
      ∧ ∀ (s t : State) (p : Port), w.vans = s.vans → w.time = s.time → w.journal.reserved = s.journal.reserved →
        (∀ e, e ≠ d → w.dock e = s.dock e) → t.endsAs (w.remark number d) p →
        (∀ q k, (w.remark number d).notified q k → t.notified q k) →
        t.remarksJob s number d w.journal.nextSeq rest := by
  cases hs : w.slotOf number with
  | none =>
    have same : w.remark number d = w := by rw [State.remark, State.withJob, hs]
    rw [same]
    refine ⟨[], .refl .., fun s t p vans _ _ _ _ _ slot j before beyond found => ?_⟩
    rw [← slotOf_congr vans, hs] at found
    cases found
  | some slot =>
    obtain ⟨j, hj, -⟩ := slotOf_job hs
    let left := j.marked.filter (fun i => decide (i.dock ≠ d))
    have removed : j.marked.filter (fun i => i.dock != d) = left :=
      List.filter_congr (fun i _ => by rw [Bool.eq_iff_iff]; simp)
    have next : ∀ {s : State} {before beyond : List DockNo}, w.time = s.time →
        (∀ e, e ≠ d → w.dock e = s.dock e) →
        s.time.config.walk j.start j.direction j.walk = before ++ j.position :: beyond → j.position ∉ before →
        beyond.find? (fun x => decide (x ≠ d ∧ (s.dock x).state = .empty ∧ (s.dock x).verified = true))
          = (w.beyond j).find? (fun x => w.deliverable x) := fun time others walk first => by
      rw [beyond_eq (s := w) (time ▸ walk) first]
      exact find?_congr (fun x _ => deliverable_eq docked others x)
    cases hx : (w.beyond j).find? (fun x => w.deliverable x) with
    | some x =>
      have marks : w.remark number d = (w.putDockState x (.vanReserved number)).settleJob slot
          { j with marked := left ++ [⟨x, .open⟩], position := x } := by
        rw [State.remark, withJob_of_slot hs hj]
        dsimp only
        rw [hx, removed]
      have free : (w.dock x).state = .empty := by
        have := List.find?_some hx
        cases hst : (w.dock x).state <;> simp [State.deliverable, DockState.isEmpty, hst] at this
        rfl
      have ne : d ≠ x := by
        rintro rfl
        cases docked.symm.trans free
      obtain ⟨rest, records, settles⟩ := settleJob_settles (w.putDockState x (.vanReserved number)) slot
        { j with marked := left ++ [⟨x, .open⟩], position := x }
      rw [marks]
      refine ⟨rest, settleJob_remarked (reserve_remarked number free ne) records, ?_⟩
      intro s t p vans time reserved others ends notified slot' j' before beyond hslot hjob walk first
      cases (slotOf_congr vans number ▸ hs).symm.trans hslot
      cases (job_congr vans slot ▸ hj).symm.trans hjob
      have found := (next time others walk first).trans hx
      have docks : ∀ e, t.dock e = (w.putDockState x (.vanReserved number)).dock e := fun e => by
        rw [endsAs_dock ends, (settleJob_kept ..).1]
        rfl
      refine ⟨fun y hy => ?_, fun none => (nomatch none.symm.trans found)⟩
      cases hy.symm.trans found
      refine ⟨?_, fun e hd he => ?_, settles s t p vans time reserved ends notified⟩
      · rw [docks, putDockState_dock_self, others x (Ne.symm ne)]
      · rw [docks, putDockState_dock_ne _ _ he, others e hd]
    | none =>
      have shortens : w.remark number d
          = w.settleJob slot { j with marked := left, conditions := { j.conditions with short := true } } := by
        rw [State.remark, withJob_of_slot hs hj]
        dsimp only
        rw [hx, removed]
      obtain ⟨rest, records, settles⟩ := settleJob_settles w slot
        { j with marked := left, conditions := { j.conditions with short := true } }
      rw [shortens]
      refine ⟨rest, settleJob_remarked (.refl w d) records, ?_⟩
      intro s t p vans time reserved others ends notified slot' j' before beyond hslot hjob walk first
      cases (slotOf_congr vans number ▸ hs).symm.trans hslot
      cases (job_congr vans slot ▸ hj).symm.trans hjob
      have found := (next time others walk first).trans hx
      refine ⟨fun y hy => (nomatch hy.symm.trans found), fun _ => ⟨fun e hd => ?_, ?_⟩⟩
      · rw [endsAs_dock ends, (settleJob_kept ..).1]
        exact others e hd
      · exact settles s t p vans time reserved ends notified

end Sys2Proof.Machine.RideLaws
end

section
/-! PROOFS. The settlement of a token: the fare charged to an entry or deferred, its RIDE_END, and the settled-ride list (R41 to
R43, R61 to R63). -/

namespace Sys2Proof.Machine.RideLaws

open Sys2Proof.Machine.Laws

/-! ## The settlement -/

/-- A token that is not settled, in a station with a valid clock, two free slots and plan 0, is charged now (R41). -/
theorem settle_charges {s : State} {token : Token} {plan : Plan} {substituted : Bool}
    (fresh : (token.origin, token.ride) ∉ s.rides.settled) (clock : s.time.clockValid = true) (free : 2 ≤ s.freeSlots)
    (resolved : s.fares.resolve token.tariff = some (plan, substituted)) (bike : Nat) (d : DockNo) (returnTime : Nat) :
    s.settle token bike d returnTime = s.chargeRide token bike d returnTime plan substituted := by
  unfold State.settle
  rw [if_neg (by simpa using fresh), if_pos ⟨clock, free⟩, resolved]

/-- The pair of a settled token is on the list already, and nothing is charged (R41). -/
theorem settle_settled {s : State} {token : Token} (settled : (token.origin, token.ride) ∈ s.rides.settled) (bike : Nat)
    (d : DockNo) (returnTime : Nat) :
    s.settle token bike d returnTime = { station := s, answer := .settled, charge := none } :=
  if_pos (by simpa using settled)

theorem resolve_none {f : Fares} (h : f.plan0 = none) (i : Fin 8) : f.resolve i = none := by
  rw [Fares.resolve, h]

/-- A token that cannot be settled is kept (R41). -/
theorem settle_keeps {s : State} {token : Token} (fresh : (token.origin, token.ride) ∉ s.rides.settled)
    (h : s.time.clockValid = false ∨ s.freeSlots < 2 ∨ s.fares.plan0 = none) (bike : Nat) (d : DockNo)
    (returnTime : Nat) :
    s.settle token bike d returnTime
      = { station := s.notify .uplink .tokenHeld, answer := .keepToken, charge := none } := by
  unfold State.settle
  rw [if_neg (by simpa using fresh)]
  split
  · rename_i can
    have none0 : s.fares.plan0 = none := by
      rcases h with invalid | full | none0
      · rw [invalid] at can
        exact nomatch can.1
      · omega
      · exact none0
    rw [resolve_none none0]
  · rfl

theorem chargedEntry_some {s : State} {n : Nat} {c : CardEntry} (hc : s.card n = some c) (hp : c.provisional = false) :
    s.chargedEntry n = some c := by
  simp [State.chargedEntry, hc, hp]

theorem chargedEntry_none {s : State} {n : Nat} (h : ∀ c, s.card n = some c → c.provisional = true) :
    s.chargedEntry n = none := by
  cases hc : s.card n with
  | none => simp [State.chargedEntry, hc]
  | some c => simp [State.chargedEntry, hc, h c hc]

/-- The station once a fare is recorded: the pair on the settled-ride list, the card's entry written by `f`, the RIDE_END
appended (R41). -/
def chargedStation (s : State) (token : Token) (fields : RideEnd) (f : CardEntry → CardEntry) : State :=
  State.append (.rideEnd fields)
    (State.modifyCard token.card f
      { s with rides := { s.rides with settled := pushSettled (token.origin, token.ride) s.rides.settled } })

theorem updateCard_same (n : Nat) (cards : List CardEntry) : updateCard n (fun c => c) cards = cards := by
  simp [updateCard]

theorem modifyCard_same (s : State) (n : Nat) : s.modifyCard n (fun c => c) = s := by
  rw [State.modifyCard, updateCard_same]

/-- A fare charged to an entry (R61, R62). -/
theorem chargeRide_entry {s : State} {token : Token} {c : CardEntry} (hc : s.card token.card = some c)
    (hp : c.provisional = false) (bike : Nat) (d : DockNo) (returnTime : Nat) (plan : Plan) (substituted : Bool) :
    let u := fareDuration returnTime token.release
    let day := s.dayIndex returnTime
    let f := fareFigures plan c.basis (s.dayIndex token.release) day u.seconds
    s.chargeRide token bike d returnTime plan substituted
      = { station := chargedStation s token (s.rideEndFields (some c) token bike d u f day substituted)
            (applyCharge plan f day s.time.clock)
          answer := .settled
          charge := some f.charge } := by
  unfold State.chargeRide State.rideEndFields
  rw [chargedEntry_some hc hp, hc]
  rfl

/-- A fare deferred (R42, R63). -/
theorem chargeRide_deferred {s : State} {token : Token} (h : ∀ c, s.card token.card = some c → c.provisional = true)
    (bike : Nat) (d : DockNo) (returnTime : Nat) (plan : Plan) (substituted : Bool) :
    let u := fareDuration returnTime token.release
    let day := s.dayIndex returnTime
    let f := fareFigures plan (deferredBasis day) (s.dayIndex token.release) day u.seconds
    s.chargeRide token bike d returnTime plan substituted
      = { station := chargedStation s token (s.rideEndFields none token bike d u f day substituted) (fun c => c)
          answer := .settled
          charge := some f.charge } := by
  unfold State.chargeRide State.rideEndFields chargedStation
  rw [chargedEntry_none h, modifyCard_same]
  cases s.card token.card <;> simp [rideEndOf, FareFlags.none]

/-! ## What a recorded fare leaves -/

/-- An entry that one more held record names (R68). -/
def counted (c : CardEntry) : CardEntry := { c with refCount := c.refCount + 1 }

theorem counted_number (c : CardEntry) : (counted c).number = c.number := rfl

section Charged

variable (s : State) (token : Token) (fields : RideEnd) (f : CardEntry → CardEntry)

theorem chargedStation_grows : PortsGrow (chargedStation s token fields f) s :=
  (append_grows ..).trans (.of_ports rfl)

theorem chargedStation_notified : (chargedStation s token fields f).notified .uplink .journalWaiting :=
  append_notified ..

theorem chargedStation_journal :
    (chargedStation s token fields f).journal
      = { s.journal with records := s.journal.records ++ [⟨s.journal.nextSeq, s.stamp, .rideEnd fields⟩],
                         nextSeq := s.journal.nextSeq + 1 } := rfl

variable {token fields f} (number : ∀ c, (f c).number = c.number) (named : fields.card = token.card)
include number named

theorem chargedStation_card_self :
    (chargedStation s token fields f).card token.card
      = (s.card token.card).map (fun c => counted (f c)) := by
  show findCard token.card (updateCard fields.card counted (updateCard token.card f s.cards)) = _
  rw [named, updateCard_find_self _ _ _ counted_number, updateCard_find_self _ _ _ number, Option.map_map]
  rfl

theorem chargedStation_card_ne {n : Nat} (h : n ≠ token.card) : (chargedStation s token fields f).card n = s.card n := by
  show findCard n (updateCard fields.card counted (updateCard token.card f s.cards)) = _
  rw [named, updateCard_find_ne _ _ counted_number h, updateCard_find_ne _ _ number h]
  rfl

end Charged

end Sys2Proof.Machine.RideLaws
end

section
/-! PROOFS. INSERTED with a token whose fare is charged or deferred (R40 to R42, R61 to R63, R120). -/

namespace Sys2Proof.Machine.RideLaws

open Sys2Proof.Machine.Laws

/-! ## Requests of the rail -/

/-- A request that its port hands to its owner is one that the port may issue (R173). -/
theorem takes_allowed {α : Type} {s : State} {kind : ReqKind} {p : Port} {bytes : List Byte}
    {read : List Byte → Except RefusalReason α} {req : α} (h : s.takes kind p bytes read req) :
    kind.allowedAt p = true := by
  have passed := h.2
  unfold intake at passed
  split at passed
  · cases passed
  · split at passed
    · assumption
    · cases passed

/-- Away from the uplink port an accepted request leaves the timebase (R153). -/
theorem clocked_of_ne {s : State} {p : Port} (h : p ≠ .uplink) : s.clocked p = s.time := if_neg h

theorem inserted_not_uplink {s : State} {p : Port} {bytes : List Byte} {req : ReturnReq}
    (h : s.takes .inserted p bytes readReturn req) : p ≠ .uplink := by
  rintro rfl
  cases takes_allowed h

theorem tokenReport_not_uplink {s : State} {p : Port} {bytes : List Byte} {req : ReturnReq}
    (h : s.takes .tokenReport p bytes readReturn req) : p ≠ .uplink := by
  rintro rfl
  cases takes_allowed h

/-! ## The station read back where an event wrote it -/

/-- The journal of the station an event left may be read off its end, but for the mode. -/
theorem endsAs_journal {t u : State} {p : Port} (h : t.endsAs u p) :
    t.journal = { u.journal with mode := t.journal.mode } := (congrArg State.journal h.1 :)

/-- An event that wrote docks, cards, rides, the journal and jobs alone, by what stands after it. -/
theorem endsAs_written {t u s : State} {p : Port} (h : t.endsAs u p)
    (hu : u = { s with rail := { s.rail with docks := u.rail.docks }, cards := u.cards, rides := u.rides,
                       journal := u.journal, vans := u.vans, ports := u.ports }) :
    t.endsAs { s with rail := { s.rail with docks := t.rail.docks }, cards := t.cards, rides := t.rides,
                      journal := t.journal, vans := t.vans } p := by
  have docks := endsAs_docks h
  have cards := endsAs_cards h
  have rides := endsAs_rides h
  have vans := endsAs_vans h
  have journal := endsAs_journal h
  rw [docks, cards, rides, vans]
  obtain ⟨writes, swept⟩ := h
  generalize u.rail.docks = a at hu ⊢
  generalize u.cards = b at hu ⊢
  generalize u.rides = c at hu ⊢
  generalize u.vans = e at hu ⊢
  generalize u.ports = f at hu
  generalize u.journal = g at hu journal
  subst hu
  have same : State.withMode
      { s with rail := { s.rail with docks := a }, cards := b, rides := c, journal := t.journal, vans := e } t.journal.mode
      = { State.withMode { s with rail := { s.rail with docks := a }, cards := b, rides := c, journal := g, vans := e,
                                  ports := f } t.journal.mode with ports := s.ports } := by
    unfold State.withMode
    dsimp only
    rw [← journal]
  refine ⟨?_, ?_⟩
  · rw [same]
    exact writes
  · rw [same]
    exact sweptFrom_of_parts rfl rfl rfl rfl rfl swept

/-! ## The insertion -/

/-- The dock entry an insertion makes (R40). -/
def insertedDock (s : State) (bike : Nat) : Dock :=
  ⟨.docked { bike := bike, since := s.stamp, tokenHeld := false }, true⟩

theorem dockBike_eq {s : State} {d : DockNo} (h : (s.dock d).state = .empty ∨ ∃ n, (s.dock d).state = .vanReserved n)
    (bike : Nat) : s.dockBike d bike = s.withDock d (insertedDock s bike) := by
  refine putDock_withDock _ _ _ ?_
  rcases h with e | ⟨n, e⟩ <;> rw [e] <;> rfl

theorem withDock_dock_self (s : State) (d : DockNo) (x : Dock) : (s.withDock d x).dock d = x := Vector.getElem_set_self _

theorem withDock_dock_ne (s : State) {d e : DockNo} (x : Dock) (h : e ≠ d) : (s.withDock d x).dock e = s.dock e :=
  Vector.getElem_set_ne d.isLt e.isLt (fun q => h (Fin.ext q.symm))

/-- A token settled at an insertion leaves its dock as docked. -/
theorem settleReturn_settled {s : State} {token : Token} {d : DockNo} {bike : Nat} {w : State} {charge : Option Nat}
    (h : (s.dockBike d bike).settle token bike d s.time.clock = { station := w, answer := .settled, charge := charge }) :
    s.settleReturn token d bike = { station := w, answer := .settled, charge := charge } := by
  unfold State.settleReturn
  rw [h]

theorem ownInserted_empty {s : State} {req : ReturnReq} {token : Token} (htok : req.token = some token)
    (hst : (s.dock req.dock).state = .empty) :
    ownInserted req s
      = accept (returnedAnswer req.dock token (s.settleReturn token req.dock req.bike))
          (s.settleReturn token req.dock req.bike).station := by
  unfold ownInserted
  dsimp only
  rw [hst, htok]

theorem ownInserted_reserved {s : State} {req : ReturnReq} {token : Token} {n : Nat} (htok : req.token = some token)
    (hst : (s.dock req.dock).state = .vanReserved n) :
    ownInserted req s
      = accept (returnedAnswer req.dock token (s.settleReturn token req.dock req.bike))
          ((s.settleReturn token req.dock req.bike).station.remark n req.dock) := by
  unfold ownInserted
  dsimp only
  rw [hst, htok]

/-- The settlement of an insertion: the dock is docked, and the fare recorded. -/
def insertedStation (s : State) (req : ReturnReq) (token : Token) (fields : RideEnd) (f : CardEntry → CardEntry) : State :=
  chargedStation (s.withDock req.dock (insertedDock s req.bike)) token fields f

/-- An insertion whose token is settled with its fare: the settlement, and then what a van job makes of a reserved dock
(log 18). -/
theorem inserted_charged {s : State} {p : Port} {bytes : List Byte} {req : ReturnReq} {token : Token} {fields : RideEnd}
    {f : CardEntry → CardEntry} {charge : Nat} (h : s.takes .inserted p bytes readReturn req)
    (htok : req.token = some token)
    (hst : (s.dock req.dock).state = .empty ∨ ∃ n, (s.dock req.dock).state = .vanReserved n)
    (settled :
      let s0 := s.endRequest p (bytes.length + 1)
      (s0.withDock req.dock (insertedDock s0 req.bike)).settle token req.bike req.dock s0.time.clock
        = { station := insertedStation s0 req token fields f, answer := .settled, charge := some charge }) :
    ∃ t u rest, exec (.inserted p bytes) s = .next t
      ∧ t.answered p ReqKind.inserted.code bytes
          (.accept (.returned .settled req.dock (some (token.origin, token.ride)) (some charge)))
      ∧ t.portsKept s p ∧ t.endsAs u p
      ∧ Remarked u (insertedStation (s.endRequest p (bytes.length + 1)) req token fields f) req.dock rest
      ∧ ((s.dock req.dock).state = .empty →
          u = insertedStation (s.endRequest p (bytes.length + 1)) req token fields f ∧ rest = [])
      ∧ ∀ n, (s.dock req.dock).state = .vanReserved n →
          t.remarksJob s n req.dock (s.journal.nextSeq + 1) rest := by
  let s0 := s.endRequest p (bytes.length + 1)
  let w := insertedStation s0 req token fields f
  have result : s0.settleReturn token req.dock req.bike = { station := w, answer := .settled, charge := some charge } :=
    settleReturn_settled (by rw [dockBike_eq (s := s0) hst]; exact settled)
  have grows : PortsGrow w s0 := (chargedStation_grows ..).trans (.of_ports rfl)
  rcases hst with empty | ⟨n, reserved⟩
  · have own := ownInserted_empty (s := s0) htok empty
    rw [result] at own
    obtain ⟨answered, ends, kept, -⟩ := serve_accepted h rfl own grows.follow
    exact ⟨_, w, [], rfl, answered, kept, ends, .refl .., fun _ => ⟨rfl, rfl⟩,
      fun n reserved => nomatch empty.symm.trans reserved⟩
  · have own := ownInserted_reserved (s := s0) htok reserved
    rw [result] at own
    have docked : (w.dock req.dock).state = .docked ⟨req.bike, s0.stamp, false⟩ :=
      congrArg Dock.state (withDock_dock_self s0 req.dock (insertedDock s0 req.bike))
    obtain ⟨rest, remarked, remarks⟩ := remark_remarks w n docked
    obtain ⟨answered, ends, kept, notified⟩ := serve_accepted h rfl own (remarked.grows.trans grows).follow
    refine ⟨_, w.remark n req.dock, rest, rfl, answered, kept, ends, remarked,
      fun empty => (nomatch empty.symm.trans reserved), fun m hm => ?_⟩
    cases reserved.symm.trans hm
    exact remarks s _ p rfl rfl rfl (fun e he => withDock_dock_ne s0 _ he) ends notified

/-- A dock that a return reaches keeps the other docks where it is EMPTY, and the bike docked either way. -/
theorem insertedStation_dock_self (s : State) (req : ReturnReq) (token : Token) (fields : RideEnd)
    (f : CardEntry → CardEntry) : (insertedStation s req token fields f).dock req.dock = insertedDock s req.bike :=
  withDock_dock_self s req.dock (insertedDock s req.bike)

/-- Outside docks, cards, rides, the journal and jobs the whole of an insertion writes nothing. -/
theorem inserted_written {s v : State} {p : Port} {n : Nat} {req : ReturnReq} {token : Token} {fields : RideEnd}
    {f : CardEntry → CardEntry} {rest : List Record}
    (h : Remarked v (insertedStation (s.endRequest p n) req token fields f) req.dock rest) :
    v = { s with rail := { s.rail with docks := v.rail.docks }, cards := v.cards, rides := v.rides,
                 journal := v.journal, vans := v.vans, ports := v.ports } := by
  have kept := h.kept
  generalize v.rail.docks = docks at kept ⊢
  generalize v.vans = vans at kept ⊢
  generalize v.journal = journal at kept ⊢
  generalize v.ports = ports at kept ⊢
  subst kept
  rfl

/-- Settles O23: the settlement charged to the entry, and then the job of a reserved dock. -/
theorem returnSettled : Obligations.ReturnSettled := by
  unfold Obligations.ReturnSettled
  intro s p bytes req token c plan substituted h htok hst fresh clock free resolved hc hp u day f balance
  let fields := s.rideEndFields (some c) token req.bike req.dock u f day substituted
  let change := applyCharge plan f day s.time.clock
  let s0 := s.endRequest p (bytes.length + 1)
  let docked := s0.withDock req.dock (insertedDock s0 req.bike)
  let w := insertedStation s0 req token fields change
  obtain ⟨t, v, rest, run, answered, -, ends, remarked, ofEmpty, ofReserved⟩ :=
    inserted_charged (fields := fields) (f := change) (charge := f.charge) h htok hst 
      ((settle_charges (s := docked) fresh clock free resolved ..).trans (chargeRide_entry (s := docked) hc hp ..))
  have stamp : s0.stamp = s.time.clock := stamp_of_valid clock
  have cards : ∀ n, t.card n = w.card n := fun n => by
    rw [endsAs_card ends, remarked.kept]
    rfl
  have time : t.time = s.time := by
    rw [endsAs_time ends, clocked_of_ne (inserted_not_uplink h), remarked.kept]
    rfl
  have number : ∀ x, (change x).number = x.number := fun _ => rfl
  refine ⟨t, rest, run, answered, ?_, ?_, fun n hn => ?_, ?_, ?_, fun empty => ?_, ofReserved, ?_, ?_, time, ?_⟩
  · rw [endsAs_dock ends, remarked.dock, insertedStation_dock_self, ← stamp]
    rfl
  · exact (cards _).trans ((chargedStation_card_self (fields := fields) _ number rfl).trans (congrArg (Option.map _) hc))
  · exact (cards _).trans (chargedStation_card_ne (fields := fields) _ number rfl hn)
  · rw [endsAs_rides ends, remarked.kept]
    rfl
  · have recorded : w.journal.records = s.journal.records ++ [⟨s.journal.nextSeq, s.time.clock, .rideEnd fields⟩] := by
      rw [← stamp]
      rfl
    rw [endsAs_records ends, remarked.records, recorded, List.append_assoc]
    simp only [fields, State.rideEndFields, hc]
    rfl
  · obtain ⟨rfl, rfl⟩ := ofEmpty empty
    refine ⟨rfl, (endsAs_vans ends :), (endsAs_reserved ends :), fun e he => ?_⟩
    rw [endsAs_dock ends]
    exact withDock_dock_ne s0 _ he
  · rw [endsAs_fares ends, remarked.kept]
    rfl
  · rw [endsAs_faults ends, remarked.kept]
    rfl
  · exact endsAs_written ends (inserted_written remarked)

/-- Settles O24: the settlement charges no entry, and then the job of a reserved dock. -/
theorem deferredFareChargesNoCard : Obligations.DeferredFareChargesNoCard := by
  unfold Obligations.DeferredFareChargesNoCard
  intro s p bytes req token plan substituted h htok hst fresh clock free resolved deferred u day f settled
  let fields := s.rideEndFields none token req.bike req.dock u f day substituted
  let s0 := s.endRequest p (bytes.length + 1)
  let docked := s0.withDock req.dock (insertedDock s0 req.bike)
  let w := insertedStation s0 req token fields (fun c => c)
  obtain ⟨t, v, rest, run, answered, kept, ends, remarked, ofEmpty, ofReserved⟩ :=
    inserted_charged (fields := fields) (f := fun c => c) (charge := f.charge) h htok hst 
      ((settle_charges (s := docked) fresh clock free resolved ..).trans (chargeRide_deferred (s := docked) deferred ..))
  have stamp : s.stamp = s.time.clock := stamp_of_valid clock
  have same : settled = { w with ports := s.ports } := by
    refine state_eq rfl ?_ rfl rfl ?_ rfl rfl ?_ rfl rfl
    · show _ = (s.withDock req.dock (insertedDock s req.bike)).rail
      rw [insertedDock, stamp]
      rfl
    · exact congrArg (updateCard token.card counted) (updateCard_same ..).symm
    · refine congrArg (fun x => ({ s.journal with
        records := s.journal.records ++ [⟨s.journal.nextSeq, s.stamp, .rideEnd x⟩]
        nextSeq := s.journal.nextSeq + 1 } : Journal)) (?_ : _ = fields)
      simp only [fields, State.rideEndFields]
      cases s.card token.card <;> simp
  refine ⟨t, rest, run, answered, kept, ?_, ?_, fun empty => ?_, fun n reserved => ⟨ofReserved n reserved, ?_⟩⟩
  · rw [endsAs_records ends, remarked.records, same]
  · rw [endsAs_dock ends, remarked.dock, same]
    rfl
  · obtain ⟨rfl, rfl⟩ := ofEmpty empty
    refine ⟨rfl, ?_⟩
    rw [same]
    exact endsAs_congr ends rfl
  · have written := endsAs_written ends (inserted_written remarked)
    rw [endsAs_cards ends, endsAs_rides ends, remarked.kept] at written
    rw [same]
    exact written

end Sys2Proof.Machine.RideLaws
end

section
/-! PROOFS. A report the station makes itself, on the bike of a dock (R89, R96, R97). -/

namespace Sys2Proof.Machine.RideLaws

open Sys2Proof.Machine.Laws

/-! ## The report and its place -/

/-- The report that the station makes itself on the bike of a dock (R89). -/
def railReport (bike : Nat) (d : DockNo) (category : Category) : Report :=
  { bike := bike, dock := some d, category := category, source := .rail, card := none }

section Internal

variable {s : State} {bike : Nat} (d : DockNo) (category : Category)

theorem internalReport_placed {place : Place} (h : s.placeReport bike = some place) :
    s.internalReport bike d category = s.takeReport (railReport bike d category) place := by
  unfold State.internalReport
  rw [h]
  rfl

theorem internalReport_noPlace (h : s.placeReport bike = none) :
    s.internalReport bike d category = s.appendIfRoom ((railReport bike d category).record 0 false) := by
  unfold State.internalReport
  rw [h]
  rfl

/-- A record made alone does what R93 and R97 say of a report that starts no quarantine (R96). -/
theorem appendIfRoom_reported (s : State) (r : Report) (score : Nat) (quarantined : Bool) :
    Reported (s.appendIfRoom (r.record score quarantined)) s r false score quarantined := by
  refine ⟨fun e => appendIfRoom_dock .., freed_appendIfRoom .., nofun, fun room => ?_, fun full _ => ?_, fun _ => ⟨?_, ?_⟩,
    ?_, ⟨appendIfRoom_fares .., appendIfRoom_vans .., appendIfRoom_time ..⟩, nofun, nofun⟩
  · rw [appendIfRoom_of_room (body := r.record score quarantined) room]
    rfl
  · rw [appendIfRoom_of_full (body := r.record score quarantined) (full ▸ Nat.zero_lt_one)]
  · rw [appendIfRoom_rides]
  · rcases appendIfRoom_cases s (r.record score quarantined) with e | e
    · rw [e]
    · rw [e]
      rfl
  · rw [appendIfRoom_rides]

/-- The station's own report does what R93, R96 and R97 say of it, with a place or without one. -/
theorem internalReport_reported (s : State) (bike : Nat) (d : DockNo) (category : Category) :
    ∃ starts score quarantined,
      Reported (s.internalReport bike d category) s (railReport bike d category) starts score quarantined := by
  cases place : s.placeReport bike with
  | some p =>
    rw [internalReport_placed d category place]
    exact ⟨_, _, _, takeReport_reported ..⟩
  | none =>
    rw [internalReport_noPlace d category place]
    exact ⟨_, _, _, appendIfRoom_reported ..⟩

end Internal

/-! ## The wait for a token report -/

theorem quarantineEffect_awaited (s u : State) (bike : Nat) (d : DockNo) :
    (s.quarantineEffect bike u d).rail.awaited = u.rail.awaited := by
  have outcome : ∀ (v : State) p kind card e, (v.withOutcome p kind card e).rail = v.rail := by
    intro v p kind card e
    cases p <;> rfl
  unfold State.quarantineEffect
  split
  · split
    · rw [outcome]
      rfl
    · rfl
  · split
    · dsimp only
      rw [outcome]
      rfl
    · rfl
  all_goals rfl

theorem quarantineEffects_awaited (s : State) (bike : Nat) :
    (s.quarantineEffects bike).rail.awaited = s.rail.awaited :=
  foldl_invariant _ (fun u => u.rail.awaited = s.rail.awaited)
    (fun u d h => (quarantineEffect_awaited s u bike d).trans h) _ s rfl

theorem reportEffects_awaited (s : State) (starts : Bool) (bike : Nat) (dock : Option DockNo) (category : Category)
    (source : Port) (card : Option Nat) (score : Nat) (quarantined : Bool) :
    (s.reportEffects starts bike dock category source card score quarantined).rail.awaited = s.rail.awaited := by
  have acted : (if starts then s.quarantineEffects bike else s).rail.awaited = s.rail.awaited := by
    cases starts
    · rfl
    · exact quarantineEffects_awaited s bike
  unfold State.reportEffects
  generalize (if starts then s.quarantineEffects bike else s) = u at acted
  dsimp only
  split
  · cases card
    · exact acted
    · exact acted
  · exact acted

/-- A report of the station's own leaves the wait for a token report. -/
theorem internalReport_awaited (s : State) (bike : Nat) (d : DockNo) (category : Category) :
    (s.internalReport bike d category).rail.awaited = s.rail.awaited := by
  cases place : s.placeReport bike with
  | some p =>
    rw [internalReport_placed d category place, takeReport_effects]
    exact reportEffects_awaited ..
  | none => rw [internalReport_noPlace d category place, appendIfRoom_rail]

/-! ## The report as the statements spell it -/

/-- Without a place only the record is made (R96). -/
theorem reportEffects_noPlace (s : State) (bike : Nat) (d : DockNo) (category : Category) :
    let u := s.appendIfRoom ((railReport bike d category).record 0 false)
    s.reportEffects false bike (some d) category .rail none 0 false
      = { u with ports := (s.reportEffects false bike (some d) category .rail none 0 false).ports } := by
  intro u
  by_cases room : 1 ≤ s.freeSlots
  · have made : u = s.append _ := appendIfRoom_of_room room
    rw [made]
    unfold State.reportEffects
    simp only [Bool.false_eq_true, if_false, if_pos room]
    rfl
  · have made : u = s := appendIfRoom_of_full (Nat.lt_of_not_le room)
    rw [made]
    unfold State.reportEffects
    simp only [Bool.false_eq_true, if_false, if_neg room]

/-- A quarantine starts where the entry's flag is set anew (R92). -/
theorem startsQuarantine_of_entry (s : State) (r : Report) (p : Place) :
    startsQuarantine s r p = ((reportedEntry s r p).quarantined && !p.entry.quarantined) := by
  rw [reportedEntry_quarantined, startsQuarantine_eq]
  cases p.entry.quarantined <;> simp

/-- An event that ends with the station's own report on the station `s`, whatever its port units. -/
theorem reportsInternally_of_settlesAs {t s : State} {units : PortUnits} {bike : Nat} {d : DockNo} {category : Category}
    (ends : t.settlesAs (State.internalReport bike d category { s with ports := units }))
    (notified : ∀ q k, (State.internalReport bike d category { s with ports := units }).notified q k → t.notified q k) :
    t.reportsInternally s bike d category := by
  let r := railReport bike d category
  constructor
  · intro old created replaced scores e starts
    obtain ⟨faults, place⟩ := scoresOn_placeReport scores
    let here : Place := ⟨old, faults, created, replaced⟩
    let s0 : State := { s with ports := units }
    rw [internalReport_placed (s := s0) (place := here) d category place] at ends notified
    have isStarts : startsQuarantine s r here = starts := startsQuarantine_of_entry ..
    have faultsAre : t.faults = (s0.takeReport r here).faults := (congrArg State.faults ends.1 :)
    have fault := fun x => (fault_congr faultsAre x).trans (takeReport_fault (s := s0) scores place r x)
    refine ⟨?_, fun x hx hr => ?_, fun x hx => ?_, fun h => ?_, ?_⟩
    · rw [fault, if_pos rfl]
      rfl
    · rw [fault, if_neg hx, if_neg hr]
      rfl
    · rw [fault, if_neg (scoresOn_replaced_ne scores hx), if_pos hx]
    · obtain ⟨service, uplink⟩ := (takeReport_reported s0 r here).told (isStarts.trans h)
      exact ⟨notified _ _ service, notified _ _ uplink⟩
    · refine settlesAs_congr ends ?_
      rw [faultsAre, ← isStarts]
      exact reportEffects_takeReport s units r here
  · intro full
    let s0 : State := { s with ports := units }
    rw [internalReport_noPlace (s := s0) d category ((placeReport_eq_none s0 bike).2 full)] at ends
    refine settlesAs_congr ends ?_
    have spelled := reportEffects_noPlace s0 bike d category
    rw [reportEffects_ports] at spelled
    exact congrArg (fun v : State => { v with
      ports := (s.reportEffects false bike (some d) category .rail none 0 false).ports }) spelled

/-- The newest of the last reports is the one scored (R91). -/
theorem scored_newest (old : FaultEntry) (category : Category) (source : Port) (card : Option Nat)
    (time threshold : Nat) :
    (old.scored category source card time threshold).reports.getLast? = some ⟨source, card, category, time⟩ := by
  simp [FaultEntry.scored, List.getLast?_drop]

/-- A TAG report is never a duplicate, and adds 2 (R91). -/
theorem scored_tag_score (old : FaultEntry) (time threshold : Nat) :
    (old.scored .tag .rail none time threshold).score = min 15 (old.score + 2) := rfl

end Sys2Proof.Machine.RideLaws
end

section
/-! PROOFS. TOKEN_REPORT (R46). -/

namespace Sys2Proof.Machine.RideLaws

open Sys2Proof.Machine.Laws

/-! ## The dock cleared -/

theorem withToken_heldToken (st : DockState) : (st.withToken false).heldToken? = none := by
  cases st with
  | outOfService b k => cases b <;> rfl
  | _ => rfl

/-- A station with the token-held flag of a dock cleared, the READ_TOKEN for it withdrawn and no report awaited (R5, R46). -/
def clearedStation (s : State) (d : DockNo) (b : DockedBike) : State :=
  { s with
    rail :=
      { s.rail with
        docks := s.rail.docks.set d ⟨(s.dock d).state.withToken false, true⟩
        queue := s.rail.queue.filter (fun c => !b.tokenHeld || decide (c ≠ .readToken d))
        awaited := none } }

theorem clearToken_eq {s : State} {d : DockNo} {b : DockedBike} (none0 : s.rail.awaited = none)
    (hb : (s.dock d).state.bike? = some b) : s.clearToken d = clearedStation s d b := by
  have held : (s.dock d).state.heldToken? = if b.tokenHeld then some b.bike else none := by
    rw [DockState.heldToken?, hb]
  unfold State.clearToken State.putDock clearedStation
  congr 1
  cases flag : b.tokenHeld with
  | false =>
    have rail := putDock_rail_of_token s d ⟨(s.dock d).state.withToken false, true⟩ (.inl (by rw [held, flag]; rfl))
    refine Eq.trans rail ?_
    simp [none0]
  | true =>
    have clears : (s.rail.docks[d]).state.heldToken? = some b.bike := by
      show (s.dock d).state.heldToken? = _
      rw [held, flag]
      rfl
    unfold Rail.putDock
    dsimp only
    rw [clears, withToken_heldToken, if_pos ⟨rfl, nofun⟩]
    simp [Rail.dropRead, none0, bne, beq_eq_decide]

theorem clearedStation_dock_self (s : State) (d : DockNo) (b : DockedBike) :
    (clearedStation s d b).dock d = ⟨(s.dock d).state.withToken false, true⟩ :=
  Vector.getElem_set_self _

theorem clearedStation_dock_ne (s : State) {d e : DockNo} (b : DockedBike) (h : e ≠ d) :
    (clearedStation s d b).dock e = s.dock e :=
  Vector.getElem_set_ne d.isLt e.isLt (fun q => h (Fin.ext q.symm))

/-- A quarantine leaves the token-held flag of a dock. -/
theorem quarantinedFor_heldToken (x : Dock) (bike : Nat) : (x.quarantinedFor bike).state.heldToken? = x.state.heldToken? := by
  obtain ⟨st, verified⟩ := x
  cases st with
  | held b h =>
    simp only [Dock.quarantinedFor]
    split
    · rfl
    · rfl
  | unlocking b r =>
    simp only [Dock.quarantinedFor]
    split
    · rfl
    · rfl
  | _ => rfl

/-! ## What the owner makes of a token report -/

theorem ownTokenReport_unawaited {s : State} {req : ReturnReq} (h : s.rail.awaited ≠ some req.dock) :
    ownTokenReport req s = refuse .notFound s := if_neg h

section Owner

variable {s : State} {req : ReturnReq} {b : DockedBike} (awaited : s.rail.awaited = some req.dock)
  (hb : (s.dock req.dock).state.bike? = some b)
include awaited hb

theorem ownTokenReport_plain (htok : req.token = none) :
    ownTokenReport req s
      = accept (.returned .plain req.dock none none)
          ((s.endWait.clearToken req.dock).internalReport b.bike req.dock .tag) := by
  unfold ownTokenReport
  dsimp only
  rw [if_pos awaited, hb, htok]

variable {token : Token} {u : State} (htok : req.token = some token)
include htok

/-- A token settled clears its dock (R46). -/
theorem ownTokenReport_settled {charge : Option Nat}
    (h : s.endWait.settle token b.bike req.dock (s.reportTime b)
      = { station := u, answer := .settled, charge := charge }) (rail : u.rail = s.endWait.rail) :
    ownTokenReport req s
      = accept (.returned .settled req.dock (some (token.origin, token.ride)) charge)
          (clearedStation u req.dock b) := by
  have none0 : u.rail.awaited = none := by rw [rail]; rfl
  have there : (u.dock req.dock).state.bike? = some b := by rw [State.dock, rail]; exact hb
  unfold ownTokenReport
  dsimp only
  rw [if_pos awaited, hb, htok]
  dsimp only
  rw [h, ← clearToken_eq none0 there]
  rfl

/-- A token kept leaves its dock as it was (R46). -/
theorem ownTokenReport_kept {charge : Option Nat}
    (h : s.endWait.settle token b.bike req.dock (s.reportTime b)
      = { station := u, answer := .keepToken, charge := charge }) :
    ownTokenReport req s = accept (.returned .keepToken req.dock (some (token.origin, token.ride)) charge) u := by
  unfold ownTokenReport
  dsimp only
  rw [if_pos awaited, hb, htok]
  dsimp only
  rw [h]
  rfl

end Owner

/-! ## The station after its event -/

/-- The journal stands through a request that writes none of it. -/
theorem serve_journal_same {α : Type} {s u : State} {kind : ReqKind} {p : Port} {bytes : List Byte}
    {read : List Byte → Except RefusalReason α} {req : α} (h : s.takes kind p bytes read req)
    {owner : α → State → Handled} {body : AcceptBody}
    (ho : owner req (s.endRequest p (bytes.length + 1)) = accept body u) (journal : u.journal = s.journal) :
    (serve kind p bytes read owner s).journal = s.journal := by
  let v := (u.afterAnswer p (kind != .factoryClear) (.accept body)).placeAnswer p ⟨kind.code, tagOf bytes, .accept body⟩
  have same : v.journal = s.journal := by rw [placeAnswer_journal, afterAnswer_journal, journal]
  have served : serve kind p bytes read owner s = ((v.reckonMode s).sweep).reckonLines s := by
    rw [serve_takes h, ho]
    rfl
  rw [served, reckonLines_journal, sweep_journal, reckonMode_same same, same]

/-- Away from the uplink port the end of a request's event is that of an event outside any request. -/
theorem settlesAs_of_endsAs {t u : State} {p : Port} (h : p ≠ .uplink) (ends : t.endsAs u p) : t.settlesAs u := by
  obtain ⟨writes, swept⟩ := ends
  rw [clocked_of_ne h] at writes
  exact ⟨writes, swept⟩

/-- What a cleared dock reads back as once the event has ended. -/
theorem endsAs_cleared {t u : State} {p : Port} {d : DockNo} {b : DockedBike} (ends : t.endsAs (clearedStation u d b) p) :
    t.dock d = ⟨(u.dock d).state.withToken false, true⟩ ∧ t.rail.awaited = none
      ∧ ∀ e, e ≠ d → t.dock e = u.dock e := by
  refine ⟨?_, (endsAs_awaited ends :), fun e he => ?_⟩
  · rw [endsAs_dock ends, clearedStation_dock_self]
  · rw [endsAs_dock ends, clearedStation_dock_ne _ _ he]

/-- A token report whose fare is recorded: the settlement, and the dock cleared (R46). -/
theorem tokenReport_charged {s : State} {p : Port} {bytes : List Byte} {req : ReturnReq} {b : DockedBike} {token : Token}
    {fields : RideEnd} {f : CardEntry → CardEntry} {charge : Nat}
    (h : s.takes .tokenReport p bytes readReturn req) (awaited : s.rail.awaited = some req.dock)
    (hb : (s.dock req.dock).state.bike? = some b) (htok : req.token = some token)
    (settled : (s.endRequest p (bytes.length + 1)).endWait.settle token b.bike req.dock (s.reportTime b)
      = { station := chargedStation (s.endRequest p (bytes.length + 1)).endWait token fields f, answer := .settled,
          charge := some charge }) :
    ∃ t, exec (.tokenReport p bytes) s = .next t
      ∧ t.answered p ReqKind.tokenReport.code bytes
          (.accept (.returned .settled req.dock (some (token.origin, token.ride)) (some charge)))
      ∧ t.endsAs (clearedStation (chargedStation s token fields f) req.dock b) p
      ∧ t.notified .uplink .journalWaiting := by
  let s0 := s.endRequest p (bytes.length + 1)
  let u := chargedStation s0.endWait token fields f
  have own := ownTokenReport_settled (s := s0) awaited hb htok settled rfl
  have cleared : PortsGrow (clearedStation u req.dock b) u := .of_ports rfl
  have grows : PortsGrow (clearedStation u req.dock b) s0 :=
    cleared.trans ((chargedStation_grows ..).trans (.of_ports rfl))
  obtain ⟨answered, ends, -, notified⟩ := serve_accepted h rfl own grows.follow
  exact ⟨_, rfl, answered, endsAs_congr ends rfl, notified _ _ (chargedStation_notified s0.endWait token fields f)⟩

end Sys2Proof.Machine.RideLaws
end

section
/-! PROOFS. TOKEN_REPORT settled. -/

namespace Sys2Proof.Machine.RideLaws

open Sys2Proof.Machine.Laws

section Case

variable {s : State} {p : Port} {bytes : List Byte} {req : ReturnReq} {b : DockedBike}
  (h : s.takes .tokenReport p bytes readReturn req) (awaited : s.rail.awaited = some req.dock)
  (hb : (s.dock req.dock).state.bike? = some b)
include h awaited hb

/-- A token whose pair is on the settled-ride list: its dock is cleared and nothing is charged (R41, R46). -/
theorem tokenReport_settled {token : Token} (htok : req.token = some token)
    (settled : (token.origin, token.ride) ∈ s.rides.settled) :
    ∃ t, exec (.tokenReport p bytes) s = .next t
      ∧ t.answered p ReqKind.tokenReport.code bytes
          (.accept (.returned .settled req.dock (some (token.origin, token.ride)) none))
      ∧ t.endsAs (clearedStation s req.dock b) p ∧ t.journal = s.journal := by
  let s0 := s.endRequest p (bytes.length + 1)
  have own := ownTokenReport_settled (s := s0) awaited hb htok
    (settle_settled (s := s0.endWait) settled b.bike req.dock (s0.reportTime b)) rfl
  obtain ⟨answered, ends, -, -⟩ := serve_accepted h rfl own (.of_ports rfl)
  exact ⟨_, rfl, answered, endsAs_congr ends rfl, serve_journal_same h own rfl⟩

/-- A token that cannot be settled is kept, and its dock left as it was (R41, R46). -/
theorem tokenReport_kept {token : Token} (htok : req.token = some token)
    (fresh : (token.origin, token.ride) ∉ s.rides.settled)
    (cannot : s.time.clockValid = false ∨ s.freeSlots < 2 ∨ s.fares.plan0 = none) :
    ∃ t, exec (.tokenReport p bytes) s = .next t
      ∧ t.answered p ReqKind.tokenReport.code bytes
          (.accept (.returned .keepToken req.dock (some (token.origin, token.ride)) none))
      ∧ t.notified .uplink .tokenHeld ∧ t.portsKept s p ∧ t.endsAs s.endWait p := by
  let s0 := s.endRequest p (bytes.length + 1)
  have own := ownTokenReport_kept (s := s0) awaited hb htok
    (settle_keeps (s := s0.endWait) fresh cannot b.bike req.dock (s0.reportTime b))
  have grows : PortsGrow (s0.endWait.notify .uplink .tokenHeld) s0 := (notify_grows ..).trans (.of_ports rfl)
  obtain ⟨answered, ends, kept, notified⟩ := serve_accepted h rfl own grows.follow
  exact ⟨_, rfl, answered, notified _ _ (notify_notified ..), kept, endsAs_congr ends rfl⟩

/-- A report of no token: the dock is cleared, and a TAG report made on its bike (R46, R89). -/
theorem tokenReport_plain (htok : req.token = none) :
    ∃ t starts score quarantined, exec (.tokenReport p bytes) s = .next t
      ∧ t.answered p ReqKind.tokenReport.code bytes (.accept (.returned .plain req.dock none none))
      ∧ t.rail.awaited = none
      ∧ t.dock req.dock
          = (if starts = true then ((clearedStation s req.dock b).dock req.dock).quarantinedFor b.bike
             else (clearedStation s req.dock b).dock req.dock)
      ∧ t.rides.settled = s.rides.settled
      ∧ (1 ≤ s.freeSlots → t.journal.records = s.journal.records ++
          [⟨s.journal.nextSeq, s.stamp, .fault b.bike (some req.dock) .tag .rail none score quarantined⟩])
      ∧ t.reportsInternally (clearedStation s req.dock b) b.bike req.dock .tag := by
  let s0 := s.endRequest p (bytes.length + 1)
  let w := clearedStation s0.endWait req.dock b
  have cleared : s0.endWait.clearToken req.dock = w := clearToken_eq (s := s0.endWait) rfl hb
  have own := ownTokenReport_plain (s := s0) awaited hb htok
  rw [cleared] at own
  obtain ⟨starts, score, quarantined, taken⟩ := internalReport_reported w b.bike req.dock .tag
  have grows : PortsGrow (w.internalReport b.bike req.dock .tag) s0 := taken.freed.ports.trans (.of_ports rfl)
  obtain ⟨answered, ends, -, notified⟩ := serve_accepted h rfl own grows.follow
  refine ⟨_, starts, score, quarantined, rfl, answered, ?_, ?_, ?_, fun room => ?_, ?_⟩
  · rw [endsAs_awaited ends, internalReport_awaited]
    rfl
  · rw [endsAs_dock ends, taken.docks]
    rfl
  · rw [endsAs_rides ends, taken.settled]
    rfl
  · rw [endsAs_records ends, taken.recorded room]
    rfl
  · exact reportsInternally_of_settlesAs (s := clearedStation s req.dock b) (units := s0.ports)
      (settlesAs_of_endsAs (tokenReport_not_uplink h) ends) notified

end Case

/-- What a token report that records its fare leaves of the station, read back (R46, R61, R82). -/
theorem endsAs_charged {t s : State} {p : Port} {token : Token} {fields : RideEnd} {f : CardEntry → CardEntry}
    {d : DockNo} {b : DockedBike} (away : p ≠ .uplink) (clock : s.time.clockValid = true)
    (number : ∀ x, (f x).number = x.number) (named : fields.card = token.card)
    (ends : t.endsAs (clearedStation (chargedStation s token fields f) d b) p) :
    t.dock d = ⟨(s.dock d).state.withToken false, true⟩ ∧ t.rail.awaited = none ∧ (∀ e, e ≠ d → t.dock e = s.dock e)
      ∧ t.rides = { s.rides with settled := pushSettled (token.origin, token.ride) s.rides.settled }
      ∧ t.journal.records = s.journal.records ++ [⟨s.journal.nextSeq, s.time.clock, .rideEnd fields⟩]
      ∧ t.journal.reserved = s.journal.reserved
      ∧ t.card token.card = (s.card token.card).map (fun x => counted (f x))
      ∧ (∀ n, n ≠ token.card → t.card n = s.card n)
      ∧ t.vans = s.vans ∧ t.faults = s.faults ∧ t.fares = s.fares ∧ t.time = s.time := by
  obtain ⟨dock, none0, others⟩ := endsAs_cleared ends
  refine ⟨dock, none0, others, (endsAs_rides ends :), ?_, (endsAs_reserved ends :), ?_, fun n hn => ?_, (endsAs_vans ends :),
    (endsAs_faults ends :), (endsAs_fares ends :), (endsAs_time ends).trans (clocked_of_ne away)⟩
  · rw [endsAs_records ends, ← stamp_of_valid clock]
    rfl
  · rw [endsAs_card ends]
    exact chargedStation_card_self s number named
  · rw [endsAs_card ends]
    exact chargedStation_card_ne s number named hn

/-- Settles O26, by whether the report is awaited and by its token. -/
theorem tokenReportAnswers : Obligations.TokenReportAnswers := by
  unfold Obligations.TokenReportAnswers
  intro s p bytes req h
  have away : p ≠ .uplink := tokenReport_not_uplink h
  constructor
  · intro unawaited
    exact ⟨_, rfl, serve_refused h (ownTokenReport_unawaited unawaited)⟩
  intro b awaited hb cleared back day
  refine ⟨fun token htok settled => ?_, ?_, fun token => tokenReport_kept h awaited hb, fun htok => ?_⟩
  · obtain ⟨t, run, answered, ends, journal⟩ := tokenReport_settled h awaited hb htok settled
    obtain ⟨dock, none0, others⟩ := endsAs_cleared ends
    exact ⟨t, run, answered, dock, none0, others, journal, (endsAs_cards ends :), (endsAs_rides ends :), (endsAs_vans ends :),
      (endsAs_faults ends :), (endsAs_fares ends :), (endsAs_time ends).trans (clocked_of_ne away)⟩
  · intro token plan substituted htok fresh clock free resolved c basis hcard u f
    let fields := s.rideEndFields c token b.bike req.dock u f day substituted
    let waitless := (s.endRequest p (bytes.length + 1)).endWait
    have charges := settle_charges (s := waitless) fresh clock free resolved b.bike req.dock (s.reportTime b)
    rcases hcard with ⟨x, hx, hp, rfl, rfl⟩ | ⟨provisional, rfl, rfl⟩
    · let change := applyCharge plan f day s.time.clock
      obtain ⟨t, run, answered, ends, waiting⟩ := tokenReport_charged (fields := fields) (f := change) (charge := f.charge)
        h awaited hb htok (charges.trans (chargeRide_entry (s := waitless) hx hp ..))
      obtain ⟨dock, none0, others, rides, records, reserved, self, ne, kept⟩ :=
        endsAs_charged (fields := fields) (f := change) away clock (fun _ => rfl) rfl ends
      refine ⟨t, run, answered, dock, none0, others, rides, records, reserved, fun y hy => ?_, nofun, fun absent => ?_, ne,
        waiting, kept⟩
      · cases hy
        exact self.trans (congrArg (Option.map _) hx)
      · exact nomatch hx.symm.trans absent
    · obtain ⟨t, run, answered, ends, waiting⟩ := tokenReport_charged (fields := fields) (f := fun x => x)
        (charge := f.charge) h awaited hb htok (charges.trans (chargeRide_deferred (s := waitless) provisional ..))
      obtain ⟨dock, none0, others, rides, records, reserved, self, ne, kept⟩ :=
        endsAs_charged (fields := fields) (f := fun x => x) away clock (fun _ => rfl) rfl ends
      exact ⟨t, run, answered, dock, none0, others, rides, records, reserved, nofun,
        fun x _ hx => self.trans (congrArg (Option.map _) hx), fun absent => self.trans (congrArg (Option.map _) absent), ne,
        waiting, kept⟩
  · obtain ⟨t, starts, score, quarantined, run, answered, none0, dock, settled, records, reports⟩ :=
      tokenReport_plain h awaited hb htok
    rw [clearedStation_dock_self] at dock
    refine ⟨t, run, answered, none0, ?_, ?_, settled, fun old created replaced scores => ?_,
      fun room => ⟨score, quarantined, records room⟩, reports⟩
    · have unheld : (t.dock req.dock).state.heldToken? = none := by
        rw [dock]
        split
        · rw [quarantinedFor_heldToken, withToken_heldToken]
        · exact withToken_heldToken _
      rw [DockState.tokenHeld, unheld]
      rfl
    · rw [dock]
      split
      · rfl
      · rfl
    · obtain ⟨fault, -⟩ := reports.1 old created replaced scores
      exact ⟨_, fault, scored_tag_score .., scored_newest ..⟩

end Sys2Proof.Machine.RideLaws
end

section
/-! PROOFS. The figures of a fare: its blocks, its price and the bound of its charge (R54 to R60). -/

namespace Sys2Proof.Machine.FareLaws

/-! ## Blocks -/

theorem ceilDiv_zero (b : Nat) : ceilDiv 0 b = 0 := by
  unfold ceilDiv
  rcases Nat.eq_zero_or_pos b with rfl | hb
  · rfl
  · exact Nat.div_eq_of_lt (by omega)

/-- Division rounded up takes as many blocks as cover the whole, and no more. -/
theorem ceilDiv_covers {b : Nat} (hb : 0 < b) (a : Nat) : a ≤ ceilDiv a b * b ∧ ceilDiv a b * b < a + b := by
  have split := Nat.div_add_mod' (a + (b - 1)) b
  have rest := Nat.mod_lt (a + (b - 1)) hb
  unfold ceilDiv
  omega

theorem billable_eq (p : Plan) (free d : Nat) : billable p free d = d - (p.graceSeconds + 60 * free) := Nat.sub_sub ..

theorem overstay_none {p : Plan} {d : Nat} (h : p.overstayStart = 0 ∨ d ≤ 60 * p.overstayStart) : overstay p d = 0 :=
  if_pos h

theorem overstay_some {p : Plan} {d : Nat} (h0 : p.overstayStart ≠ 0) (h : 60 * p.overstayStart < d) :
    overstay p d = ceilDiv (d - 60 * p.overstayStart) (60 * p.blockMinutes) :=
  if_neg (fun q => q.elim h0 (Nat.not_le_of_lt h))

theorem covers_iff (k : CardKind) (day : Int) : k.covers day = true ↔ ∃ expiry, k = .pass expiry ∧ day ≤ expiry := by
  cases k with
  | payg => simp [CardKind.covers]
  | pass expiry => simp [CardKind.covers]

/-- Settles O19: rounding up covers the billable and the overstay seconds, and nothing is owed where there are none. -/
theorem fareDurationAndBlocks : Obligations.FareDurationAndBlocks := by
  unfold Obligations.FareDurationAndBlocks
  refine ⟨fun back out => rfl, fun plan basis releaseDay returnDay d hb => ?_⟩
  intro f block
  have positive : 0 < block := by omega
  have base : f.baseBlocks = ceilDiv (d - (plan.graceSeconds + 60 * f.freeMinutes)) block := by
    rw [← billable_eq]
    rfl
  refine ⟨covers_iff .., rfl, fun free => ?_, fun owed => ?_, overstay_none, fun start late => ?_⟩
  · rw [base, Nat.sub_eq_zero_of_le free, ceilDiv_zero]
  · have := ceilDiv_covers positive (d - (plan.graceSeconds + 60 * f.freeMinutes))
    rw [← base] at this
    omega
  · have stay : f.overstayBlocks = ceilDiv (d - 60 * plan.overstayStart) block := overstay_some start late
    have := ceilDiv_covers positive (d - 60 * plan.overstayStart)
    rw [← stay] at this
    omega

/-! ## The price -/

theorem capBase_uncapped {p : Plan} (h : p.dayCap = 0) (charged discounted : Nat) :
    capBase p charged discounted = discounted := if_pos h

theorem capBase_capped {p : Plan} (h : p.dayCap ≠ 0) (charged discounted : Nat) :
    capBase p charged discounted = min discounted (p.dayCap - charged) := if_neg h

/-- Law 7 (R60): a fare's charge is its base and its surcharge charged, and at most 60,000. -/
theorem fareFigures_charge (p : Plan) (b : FareBasis) (releaseDay returnDay : Int) (d : Nat) :
    let f := fareFigures p b releaseDay returnDay d
    f.charge = f.baseCharged + f.surchargeCharged ∧ f.charge ≤ Config.chargeCeiling := by
  intro f
  have base : f.baseCharged ≤ Config.chargeCeiling := Nat.min_le_right ..
  have surcharge : f.surchargeCharged ≤ Config.chargeCeiling - f.baseCharged := Nat.min_le_right ..
  have sum : f.charge = f.baseCharged + f.surchargeCharged := rfl
  exact ⟨sum, by omega⟩

/-- Settles O20: the steps as they stand, the base under its cap and the charge under the ceiling. -/
theorem farePricing : Obligations.FarePricing := by
  unfold Obligations.FarePricing
  intro plan basis releaseDay returnDay d f charged surcharge
  obtain ⟨sum, ceiling⟩ := fareFigures_charge plan basis releaseDay returnDay d
  have base : f.baseCharged = min f.capped 60000 := rfl
  have capped : plan.dayCap ≠ 0 → f.capped = min f.discounted (plan.dayCap - charged) := fun h => capBase_capped h ..
  refine ⟨rfl, rfl, fun h => capBase_uncapped h .., capped, base, rfl, sum, decide_eq_true_iff, ceiling, fun h => ?_⟩
  have under := capped h
  omega

end Sys2Proof.Machine.FareLaws
end

section
/-! PROOFS. What each operation makes of the journal: records appended one at a time, and a RIDE_END only with the charge of
a computed fare (R60, R133). -/

namespace Sys2Proof.Machine.JournalLaws

open Sys2Proof.Machine.Laws

/-! ## A journal that grows -/

/-- The journal `k` is `j` with records appended: each takes the next sequence number, a RIDE_END keeps Law 7, and the marker
stands; the reservation count and the mode are left open. -/
def JournalGrows (k j : Journal) : Prop :=
  ∃ added : List Record, k.records = j.records ++ added
    ∧ added.map Record.seq = List.range' j.nextSeq added.length ∧ k.nextSeq = j.nextSeq + added.length
    ∧ k.marker = j.marker ∧ ∀ r ∈ added, r.body.chargeBounded

theorem JournalGrows.of_parts {k j : Journal} (records : k.records = j.records) (next : k.nextSeq = j.nextSeq)
    (marker : k.marker = j.marker) : JournalGrows k j :=
  ⟨[], by rw [records, List.append_nil], rfl, next, marker, fun _ h => absurd h List.not_mem_nil⟩

theorem JournalGrows.of_eq {k j : Journal} (h : k = j) : JournalGrows k j := h ▸ .of_parts rfl rfl rfl

theorem JournalGrows.refl (j : Journal) : JournalGrows j j := .of_eq rfl

theorem JournalGrows.trans {k j i : Journal} (h1 : JournalGrows k j) (h2 : JournalGrows j i) : JournalGrows k i := by
  obtain ⟨new, records, seqs, next, marker, bounded⟩ := h1
  obtain ⟨old, records', seqs', next', marker', bounded'⟩ := h2
  refine ⟨old ++ new, by rw [records, records', List.append_assoc], ?_, ?_, marker.trans marker', fun r hr => ?_⟩
  · rw [List.map_append, seqs, seqs', next', List.length_append, List.range'_append_1]
  · rw [next, next', List.length_append, Nat.add_assoc]
  · exact (List.mem_append.1 hr).elim (bounded' r) (bounded r)

/-- A walk whose every step lets the journal grow lets it grow. -/
theorem foldl_journal {α : Type} {f : State → α → State} (h : ∀ s x, JournalGrows (f s x).journal s.journal) (l : List α)
    (s : State) : JournalGrows (l.foldl f s).journal s.journal :=
  foldl_invariant f (fun u => JournalGrows u.journal s.journal) (fun u x hu => (h u x).trans hu) l s (.refl _)

/-! ## Appending and reserving -/

theorem reserve_journal_grows (s : State) (n : Nat) : JournalGrows (s.reserve n).journal s.journal := .of_parts rfl rfl rfl

theorem unreserve_journal_grows (s : State) (n : Nat) : JournalGrows (s.unreserve n).journal s.journal :=
  .of_parts rfl rfl rfl

theorem append_journal_grows (s : State) {body : RecordBody} (h : body.chargeBounded) :
    JournalGrows (s.append body).journal s.journal :=
  ⟨[⟨s.journal.nextSeq, s.stamp, body⟩], rfl, rfl, rfl, rfl, fun r hr => by rw [List.mem_singleton.1 hr]; exact h⟩

theorem appendIfRoom_journal_grows (s : State) {body : RecordBody} (h : body.chargeBounded) :
    JournalGrows (s.appendIfRoom body).journal s.journal := by
  rcases appendIfRoom_cases s body with e | e <;> rw [e]
  · exact .refl _
  · exact append_journal_grows s h

theorem appendReserved_journal_grows (s : State) (size : Nat) {body : RecordBody} (h : body.chargeBounded) :
    JournalGrows (s.appendReserved size body).journal s.journal :=
  (append_journal_grows _ h).trans (unreserve_journal_grows s size)

/-! ## The ends of releases and holds -/

@[simp] theorem loseHold_journal (s : State) (d : DockNo) (h : HoldRecord) (cause : LossCause) :
    (s.loseHold d h cause).journal = s.journal := by simp [State.loseHold]

@[simp] theorem expireHold_journal (s : State) (d : DockNo) (b : DockedBike) (h : HoldRecord) :
    (s.expireHold d b h).journal = s.journal := by simp [State.expireHold]

theorem endLapsed_journal_grows (s : State) (d : DockNo) (r : ReleaseRecord) (reason : LapseReason) :
    JournalGrows (s.endLapsed d r reason).journal s.journal :=
  .trans (.of_eq (by rw [State.endLapsed, outcome_journal, clearInFlight_journal])) (unreserve_journal_grows s 1)

theorem lapseRelease_journal_grows (s : State) (d : DockNo) (b : DockedBike) (r : ReleaseRecord) (reason : LapseReason) :
    JournalGrows (s.lapseRelease d b r reason).journal s.journal :=
  (endLapsed_journal_grows ..).trans (.of_eq (by simp))

theorem completeRelease_journal_grows (s : State) (d : DockNo) (b : DockedBike) (r : ReleaseRecord) :
    JournalGrows (s.completeRelease d b r).journal s.journal :=
  .trans (.of_eq (by rw [State.completeRelease, outcome_journal, clearInFlight_journal]))
    (.trans (appendReserved_journal_grows _ 1 (body := .release r.card d b.bike r.ride r.origin r.provisional) trivial)
      (.of_eq (by simp)))

theorem tickDock_journal_grows (s : State) (d : DockNo) : JournalGrows (s.tickDock d).journal s.journal := by
  unfold State.tickDock
  split
  · split
    · exact .of_eq (expireHold_journal ..)
    · exact .refl _
  · split
    · exact lapseRelease_journal_grows ..
    · exact .refl _
  all_goals exact .refl _

theorem quarantineDock_journal_grows (bike : Nat) (s : State) (d : DockNo) :
    JournalGrows (s.quarantineDock bike d).journal s.journal := by
  unfold State.quarantineDock
  split
  · split
    · exact .of_eq (by simp)
    · exact .refl _
  · split
    · exact lapseRelease_journal_grows ..
    · exact .refl _
  all_goals exact .refl _

/-! ## Reports -/

theorem takeReport_journal_grows (s : State) (r : Report) (p : Place) :
    JournalGrows (s.takeReport r p).journal s.journal := by
  unfold State.takeReport
  refine .trans (appendIfRoom_journal_grows _ ?_) ?_
  · trivial
  split
  · exact foldl_journal (quarantineDock_journal_grows r.bike) ..
  · exact .refl _

theorem internalReport_journal_grows (s : State) (bike : Nat) (d : DockNo) (category : Category) :
    JournalGrows (s.internalReport bike d category).journal s.journal := by
  unfold State.internalReport
  dsimp only
  split
  · exact takeReport_journal_grows ..
  · exact appendIfRoom_journal_grows s trivial

theorem recordMissing_journal_grows (s : State) (bike : Nat) (d : DockNo) :
    JournalGrows (s.recordMissing bike d).journal s.journal := appendIfRoom_journal_grows s trivial

/-! ## Van jobs -/

theorem endJob_journal_grows (s : State) (slot : SlotNo) (j : JobRecord) :
    JournalGrows (s.endJob slot j).journal s.journal :=
  .trans (.of_eq (by rw [State.endJob, notify_journal, leaveClaim_journal]))
    (appendReserved_journal_grows (s.setJob slot _) _ (body := .jobEnd j.endRecord) trivial)

theorem settleJob_journal_grows (s : State) (slot : SlotNo) (j : JobRecord) :
    JournalGrows (s.settleJob slot j).journal s.journal := by
  rcases settleJob_cases s slot j with ⟨_, e⟩ | ⟨_, e⟩ <;> rw [e]
  · exact endJob_journal_grows ..
  · exact .refl _

/-- Work on a numbered job lets the journal grow where the work itself does. -/
theorem withJob_journal_grows (s : State) (number : Nat) {work : SlotNo → JobRecord → State → State}
    (h : ∀ slot j, JournalGrows (work slot j s).journal s.journal) : JournalGrows (s.withJob number work).journal s.journal := by
  unfold State.withJob
  split
  · exact .refl _
  · split
    · exact h ..
    · exact .refl _

theorem countRemoval_journal_grows (s : State) (number : Nat) (d : DockNo) (b : DockedBike) :
    JournalGrows (s.countRemoval number d b).journal s.journal :=
  withJob_journal_grows _ _ (fun _ _ => settleJob_journal_grows ..)

theorem faultItem_journal_grows (s : State) (number : Nat) (d : DockNo) :
    JournalGrows (s.faultItem number d).journal s.journal :=
  withJob_journal_grows _ _ (fun _ _ => settleJob_journal_grows ..)

theorem countDelivery_journal_grows (s : State) (number : Nat) (d : DockNo) (bike : Nat) :
    JournalGrows (s.countDelivery number d bike).journal s.journal :=
  withJob_journal_grows _ _ (fun _ _ => settleJob_journal_grows ..)

theorem remark_journal_grows (s : State) (number : Nat) (d : DockNo) :
    JournalGrows (s.remark number d).journal s.journal := by
  refine withJob_journal_grows _ _ (fun slot j => ?_)
  dsimp only
  split
  · exact settleJob_journal_grows ..
  · exact settleJob_journal_grows ..

@[simp] theorem returnDock_journal (s : State) (d : DockNo) : (s.returnDock d).journal = s.journal := by
  unfold State.returnDock
  split <;> rfl

theorem countStray_journal_grows (s : State) (d : DockNo) (bike : Nat) :
    JournalGrows (s.countStray d bike).journal s.journal := by
  unfold State.countStray
  split
  · exact .refl _
  · split
    · exact .refl _
    · dsimp only
      split
      · exact (settleJob_journal_grows ..).trans (.of_eq (returnDock_journal ..))
      · exact settleJob_journal_grows ..

theorem cutJob_journal_grows (s : State) (slot : SlotNo) (j : JobRecord) (add : EndConditions → EndConditions) :
    JournalGrows (s.cutJob slot j add).journal s.journal := by
  have returned := foldl_keeps State.returnDock State.journal returnDock_journal j.openDocks s
  unfold State.cutJob
  refine (endJob_journal_grows ..).trans (.of_eq ?_)
  split
  · rw [giveUp_journal, returned]
  · exact returned

theorem tickJob_journal_grows (s : State) (slot : SlotNo) : JournalGrows (s.tickJob slot).journal s.journal := by
  unfold State.tickJob
  split
  · exact .refl _
  · split
    · exact .refl _
    · split
      · exact cutJob_journal_grows ..
      · exact .refl _

theorem markDock_journal (number : Nat) (s : State) (d : DockNo) : (s.markDock number d).journal = s.journal := by
  unfold State.markDock
  split <;> rfl

theorem startWalk_journal_grows (s : State) (slot : SlotNo) (req : StartReq) (j : JobRecord) :
    JournalGrows (s.startWalk slot req j).journal s.journal := by
  have marked : ∀ (number : Nat) (l : List DockNo), (l.foldl (State.markDock number) s).journal = s.journal :=
    fun number l => foldl_keeps (State.markDock number) State.journal (markDock_journal number) l s
  unfold State.startWalk
  dsimp only
  split
  · exact endJob_journal_grows ..
  all_goals
    split
    · exact endJob_journal_grows ..
    · split <;> exact .of_eq (by simp [marked])

theorem startJob_journal_grows (s : State) (slot : SlotNo) (origin : CrewPort) (req : StartReq) :
    JournalGrows (s.startJob slot origin req).journal s.journal :=
  (startWalk_journal_grows ..).trans (reserve_journal_grows ..)

theorem resetJob_journal_grows (s : State) (slot : SlotNo) : JournalGrows (s.resetJob slot).journal s.journal := by
  unfold State.resetJob
  split
  · exact .refl _
  · split
    · exact appendReserved_journal_grows _ _ trivial
    · exact .refl _

/-! ## Docks -/

theorem dockFault_journal_grows (s : State) (kind : DockFaultKind) (d : DockNo) :
    JournalGrows (s.dockFault kind d).journal s.journal := by
  unfold State.dockFault
  dsimp only
  split
  case h_4 => exact .of_eq (by simp)
  case h_5 => exact (endLapsed_journal_grows ..).trans (.of_eq (by simp))
  case h_6 => exact (faultItem_journal_grows ..).trans (.of_eq (by simp))
  case h_7 => exact (faultItem_journal_grows ..).trans (.of_eq (by simp))
  all_goals exact .refl _

theorem forceRemoval_journal_grows (s : State) (d : DockNo) (b : DockedBike) (hold : Option HoldRecord) :
    JournalGrows (s.forceRemoval d b hold).journal s.journal := by
  unfold State.forceRemoval
  refine (internalReport_journal_grows ..).trans (.of_eq ?_)
  cases hold with
  | none => rfl
  | some hold => exact loseHold_journal ..

theorem censusItem_journal_grows (s : State) (i : CensusItem) : JournalGrows (s.censusItem i).journal s.journal := by
  have missing : ∀ (found : Option DockedBike) (u : State),
      JournalGrows (match found with
        | some b => u.recordMissing b.bike i.dock
        | none => u).journal u.journal := by
    intro found u
    cases found with
    | none => exact .refl _
    | some b => exact recordMissing_journal_grows ..
  unfold State.censusItem
  dsimp only
  split
  · exact .refl _
  · split
    · split
      · exact .trans (.of_eq (loseHold_journal ..)) (missing _ (s.putDock i.dock _))
      all_goals exact missing _ (s.putDock i.dock _)
    · exact .refl _

theorem markFetched_journal (s : State) (d : DockNo) : (s.markFetched d).journal = s.journal := by
  unfold State.markFetched
  split <;> rfl

theorem fetch_journal (s : State) (c : Command) : (s.fetch c).journal = s.journal := by
  cases c
  case unlock d token => exact markFetched_journal ..
  case batchUnlock number docks =>
    unfold State.fetch State.withJob
    dsimp only
    split
    · rfl
    · split <;> rfl
  case relock docks => rfl
  case readToken d => rfl

/-! ## Returns -/

/-- A recorded fare keeps Law 7: its figures are those of a computed fare (R60, R62). -/
theorem chargeRide_journal_grows (s : State) (t : Token) (bike : Nat) (d : DockNo) (returnTime : Nat) (plan : Plan)
    (substituted : Bool) : JournalGrows (s.chargeRide t bike d returnTime plan substituted).station.journal s.journal := by
  have law : ∀ (basis : FareBasis) (releaseDay returnDay : Int) (seconds : Nat),
      let f := fareFigures plan basis releaseDay returnDay seconds
      f.baseCharged ≤ f.charge ∧ f.charge ≤ Config.chargeCeiling := by
    intro basis releaseDay returnDay seconds f
    obtain ⟨sum, ceiling⟩ := FareLaws.fareFigures_charge plan basis releaseDay returnDay seconds
    exact ⟨sum ▸ Nat.le_add_right .., ceiling⟩
  unfold State.chargeRide
  dsimp only
  split
  · exact append_journal_grows (State.modifyCard _ _ _) (law ..)
  · exact append_journal_grows { s with rides := _ } (law ..)

theorem settle_journal_grows (s : State) (t : Token) (bike : Nat) (d : DockNo) (returnTime : Nat) :
    JournalGrows (s.settle t bike d returnTime).station.journal s.journal := by
  unfold State.settle
  dsimp only
  split
  · exact .refl _
  · split
    · split
      · exact chargeRide_journal_grows ..
      · exact .refl _
    · exact .refl _

theorem settleReturn_journal_grows (s : State) (t : Token) (d : DockNo) (bike : Nat) :
    JournalGrows (s.settleReturn t d bike).station.journal s.journal := by
  have settled : JournalGrows ((s.dockBike d bike).settle t bike d s.time.clock).station.journal s.journal :=
    settle_journal_grows (s.dockBike d bike) ..
  unfold State.settleReturn
  dsimp only
  split <;> exact settled

/-! ## The end of an event -/

theorem closeEvent_journal_grows (u s : State) : JournalGrows (u.closeEvent s).journal u.journal := by
  rw [closeEvent_journal]
  exact .of_parts rfl rfl rfl

theorem takeTick_journal_grows (s : State) (holder : TickHolder) :
    JournalGrows (s.takeTick holder).journal s.journal := by
  unfold State.takeTick
  split
  · refine (closeEvent_journal_grows ..).trans ?_
    cases holder
    case docks => exact foldl_journal tickDock_journal_grows ..
    case vans => exact foldl_journal tickJob_journal_grows ..
    case fares =>
      show JournalGrows (State.switchTariff _).journal _
      unfold State.switchTariff
      split <;> exact .refl _
    case stale =>
      show JournalGrows (State.tickStale _).journal _
      unfold State.tickStale State.loseLink
      dsimp only
      split
      · split <;> exact .refl _
      · exact .refl _
  · exact .refl _

theorem takeTicks_journal_grows (l : List TickHolder) (s : State) :
    JournalGrows (l.foldl State.takeTick s).journal s.journal := foldl_journal takeTick_journal_grows ..

/-- A request's event ends with the journal its owner left, but for the mode. -/
theorem finishFrame_journal_grows (p : Port) (first : Byte) (bytes : List Byte) (restarts : Bool) (x : Handled) (s : State) :
    JournalGrows (finishFrame p first bytes restarts x s).journal x.station.journal := by
  unfold finishFrame
  dsimp only
  split
  · exact (closeEvent_journal_grows ..).trans (.of_eq (by simp))
  · exact .of_eq (by simp)

theorem takeFrame_journal_grows (p : Port) (first : Byte) (bytes : List Byte) (restarts : Bool) (judge : State → Handled)
    (s : State) :
    JournalGrows (takeFrame p first bytes restarts judge s).journal s.journal
      ∨ JournalGrows (takeFrame p first bytes restarts judge s).journal
          (judge (s.endRequest p (bytes.length + 1))).station.journal := by
  unfold takeFrame
  split
  · exact Or.inl (.refl _)
  · dsimp only
    split
    · exact Or.inl (.refl _)
    · exact Or.inr (finishFrame_journal_grows ..)

/-- A request leaves the journal of the station, or the one its owner left, but for the mode. -/
theorem serve_journal_cases {α : Type} (kind : ReqKind) (p : Port) (bytes : List Byte)
    (read : List Byte → Except RefusalReason α) (owner : α → State → Handled) (s : State) :
    JournalGrows (serve kind p bytes read owner s).journal s.journal
      ∨ ∃ req, JournalGrows (serve kind p bytes read owner s).journal
          (owner req (s.endRequest p (bytes.length + 1))).station.journal := by
  rcases takeFrame_journal_grows p kind.code bytes (kind != .factoryClear)
    (fun u => orRefuse (intake kind p bytes read u.time.config.configured) u (fun req => owner req u)) s with h | h
  · exact Or.inl h
  · unfold orRefuse at h
    split at h
    · exact Or.inr ⟨_, h⟩
    · exact Or.inl h

/-- A request lets the journal grow where its owner does. -/
theorem serve_journal_grows {α : Type} {kind : ReqKind} {p : Port} {bytes : List Byte}
    {read : List Byte → Except RefusalReason α} {owner : α → State → Handled} {s : State}
    (ho : ∀ req (u : State), JournalGrows (owner req u).station.journal u.journal) :
    JournalGrows (serve kind p bytes read owner s).journal s.journal := by
  rcases serve_journal_cases kind p bytes read owner s with h | ⟨req, h⟩
  · exact h
  · exact h.trans (ho req _)

end Sys2Proof.Machine.JournalLaws
end

section
/-! PROOFS. What each command makes of the journal: it grows, loses its oldest records to a JOURNAL_RELEASE, or is emptied; and
that every step keeps Laws 7 and 12 (R60, R133, R144). -/

namespace Sys2Proof.Machine.JournalLaws

open Sys2Proof.Machine.Laws

/-! ## The owners -/

/-- A judged request lets the journal grow where the accepted work does: a refusal writes nothing (R176). -/
theorem orRefuse_journal_grows {α : Type} {judged : Except RefusalReason α} {u : State} {work : α → Handled}
    (h : ∀ x, JournalGrows (work x).station.journal u.journal) :
    JournalGrows (orRefuse judged u work).station.journal u.journal := by
  unfold orRefuse
  split
  · exact h _
  · exact .refl _

theorem ownRelease_journal_grows (p : Port) (req : RideReq) (u : State) :
    JournalGrows (ownRelease p req u).station.journal u.journal := orRefuse_journal_grows fun _ => reserve_journal_grows u 1

theorem ownHold_journal_grows (p : Port) (req : RideReq) (u : State) :
    JournalGrows (ownHold p req u).station.journal u.journal := orRefuse_journal_grows fun _ => .refl _

theorem ownHoldCancel_journal_grows (p : Port) (card : Nat) (u : State) :
    JournalGrows (ownHoldCancel p card u).station.journal u.journal := by
  unfold ownHoldCancel
  split
  · exact .refl _
  · split
    · exact .refl _
    · split
      · split <;> exact .refl _
      all_goals exact .refl _

theorem ownQuote_journal_grows (req : QuoteReq) (u : State) : JournalGrows (ownQuote req u).station.journal u.journal := by
  unfold ownQuote
  split
  · split
    · exact .refl _
    · split <;> exact .refl _
  · exact .refl _

theorem ownTopup_journal_grows (req : TopupReq) (u : State) : JournalGrows (ownTopup req u).station.journal u.journal := by
  unfold ownTopup
  split
  · exact .refl _
  · split
    · exact .refl _
    · split_ifs
      case neg => exact appendIfRoom_journal_grows (State.modifyCard _ _ _) trivial
      all_goals exact .refl _

theorem ownCardStatus_journal_grows (query : Option Nat) (u : State) :
    JournalGrows (ownCardStatus query u).station.journal u.journal := by
  unfold ownCardStatus
  split
  · split <;> exact .refl _
  · exact .refl _

theorem ownReportFault_journal_grows (p : Port) (req : ReportReq) (u : State) :
    JournalGrows (ownReportFault p req u).station.journal u.journal := by
  unfold ownReportFault
  split
  · refine orRefuse_journal_grows fun bike => ?_
    split
    · exact .refl _
    · split
      · exact .refl _
      · exact takeReport_journal_grows ..
  · exact .refl _

theorem ownClearFault_journal_grows (p : Port) (bike : Nat) (u : State) :
    JournalGrows (ownClearFault p bike u).station.journal u.journal := by
  unfold ownClearFault
  split
  · exact .refl _
  · exact appendIfRoom_journal_grows { u with faults := _ } trivial

theorem ownFaultStatus_journal_grows (query : FaultQuery) (u : State) :
    JournalGrows (ownFaultStatus query u).station.journal u.journal := by
  unfold ownFaultStatus
  split
  · split <;> exact .refl _
  · exact .refl _

theorem ownDockRestore_journal_grows (d : DockNo) (u : State) :
    JournalGrows (ownDockRestore d u).station.journal u.journal := by
  unfold ownDockRestore
  split <;> exact .refl _

theorem ownDockStatus_journal_grows (query : Option DockNo) (u : State) :
    JournalGrows (ownDockStatus query u).station.journal u.journal := by
  unfold ownDockStatus
  split <;> exact .refl _

theorem ownFetchCommand_journal_grows (x : Unit) (u : State) :
    JournalGrows (ownFetchCommand x u).station.journal u.journal := by
  unfold ownFetchCommand
  split
  · exact .refl _
  · exact .of_eq (fetch_journal ..)

theorem ownInserted_journal_grows (req : ReturnReq) (u : State) :
    JournalGrows (ownInserted req u).station.journal u.journal := by
  unfold ownInserted
  dsimp only
  split
  case h_1 =>
    split
    · exact countStray_journal_grows (u.dockBike req.dock req.bike) ..
    · exact settleReturn_journal_grows ..
  case h_2 =>
    split
    · exact countDelivery_journal_grows (u.dockBike req.dock req.bike) ..
    · exact (remark_journal_grows ..).trans (settleReturn_journal_grows ..)
  case h_3 => exact dockFault_journal_grows ..
  all_goals exact .refl _

theorem ownRemoved_journal_grows (req : RemovedReq) (u : State) :
    JournalGrows (ownRemoved req u).station.journal u.journal := by
  unfold ownRemoved
  dsimp only
  split
  case h_6 => exact forceRemoval_journal_grows ..
  case h_7 => exact forceRemoval_journal_grows ..
  case h_8 => exact completeRelease_journal_grows ..
  case h_9 => exact countRemoval_journal_grows (State.putDockState _ .empty (u.resolveDock _ _)) ..
  all_goals exact .refl _

theorem reportDockFault_journal_grows (kind : DockFaultKind) (d : DockNo) (u : State) :
    JournalGrows (reportDockFault kind d u).station.journal u.journal := by
  unfold reportDockFault
  split
  · exact .refl _
  · exact dockFault_journal_grows ..

theorem ownCensus_journal_grows (req : CensusReq) (u : State) :
    JournalGrows (ownCensus req u).station.journal u.journal := by
  unfold ownCensus
  split
  · exact foldl_journal censusItem_journal_grows ..
  · exact .refl _

theorem ownTokenReport_journal_grows (req : ReturnReq) (u : State) :
    JournalGrows (ownTokenReport req u).station.journal u.journal := by
  have settled : ∀ (t : Token) (bike time : Nat),
      JournalGrows (u.endWait.settle t bike req.dock time).station.journal u.journal :=
    fun _ _ _ => settle_journal_grows u.endWait ..
  unfold ownTokenReport
  dsimp only
  split
  · split
    · exact .refl _
    · split
      · split <;> exact settled ..
      · exact internalReport_journal_grows (u.endWait.clearToken req.dock) ..
  · exact .refl _

theorem ownStartJob_journal_grows (p : Port) (req : StartReq) (u : State) :
    JournalGrows (ownStartJob p req u).station.journal u.journal := by
  refine orRefuse_journal_grows fun slot => ?_
  dsimp only
  split
  · exact startJob_journal_grows ..
  · exact .refl _

theorem ownJobStatus_journal_grows (p : Port) (number : Option Nat) (u : State) :
    JournalGrows (ownJobStatus p number u).station.journal u.journal := by
  unfold ownJobStatus
  split
  · exact orRefuse_journal_grows fun _ => .refl _
  · exact .refl _

theorem ownRetireJob_journal_grows (p : Port) (number : Nat) (u : State) :
    JournalGrows (ownRetireJob p number u).station.journal u.journal := by
  refine orRefuse_journal_grows fun x => ?_
  split <;> exact .refl _

theorem ownAbortJob_journal_grows (p : Port) (number : Nat) (u : State) :
    JournalGrows (ownAbortJob p number u).station.journal u.journal := by
  refine orRefuse_journal_grows fun x => ?_
  split
  · rw [RideLaws.accept_station]
    exact cutJob_journal_grows ..
  · exact .refl _

theorem ownConfigure_journal_grows (req : ConfigureReq) (u : State) :
    JournalGrows (ownConfigure req u).station.journal u.journal := by
  unfold ownConfigure State.configure
  split
  · exact .refl _
  · dsimp only [accept]
    split_ifs <;> exact .refl _

theorem ownSetMode_journal_grows (mode : StationMode) (u : State) :
    JournalGrows (ownSetMode mode u).station.journal u.journal := by
  unfold ownSetMode
  split <;> exact .refl _

theorem ownClockSet_journal_grows (new : Nat) (u : State) :
    JournalGrows (ownClockSet new u).station.journal u.journal :=
  appendIfRoom_journal_grows { u with time := _ } (body := .clockSet _ new) trivial

theorem ownCardLoad_journal_grows (req : LoadReq) (u : State) :
    JournalGrows (ownCardLoad req u).station.journal u.journal := by
  unfold ownCardLoad
  split_ifs
  · exact .refl _
  · exact .refl _
  · split
    · exact .refl _
    · split <;> exact .refl _

theorem ownCardDrop_journal_grows (card : Nat) (u : State) :
    JournalGrows (ownCardDrop card u).station.journal u.journal := by
  unfold ownCardDrop
  split
  · exact .refl _
  · split <;> exact .refl _

theorem ownTariffStage_journal_grows (req : StagedSet) (u : State) :
    JournalGrows (ownTariffStage req u).station.journal u.journal := by
  unfold ownTariffStage
  split <;> exact .refl _

theorem ownJournalRead_journal_grows (req : ReadReq) (u : State) :
    JournalGrows (ownJournalRead req u).station.journal u.journal := by
  unfold ownJournalRead
  split <;> exact .refl _

/-- JOURNAL_RELEASE leaves the journal, or frees it through a held number (R144). -/
theorem ownJournalRelease_journal (through : Nat) (u : State) :
    (ownJournalRelease through u).station.journal = u.journal
      ∨ u.journal.marker < through ∧ through ≤ u.journal.lastSeq
        ∧ (ownJournalRelease through u).station.journal = (u.release through).journal := by
  unfold ownJournalRelease
  split
  · exact Or.inl rfl
  · split
    · exact Or.inl rfl
    · exact Or.inr ⟨by omega, by omega, rfl⟩

/-! ## Every command -/

/-- What a step can make of the journal: it grows; JOURNAL_RELEASE frees it through a held number (R144); or a cold reset or
FACTORY_CLEAR empties it (R147). -/
inductive JournalStep (k : Journal) (s : State) : Prop
  | grows (h : JournalGrows k s.journal)
  | freed (through : Nat) (above : s.journal.marker < through) (held : through ≤ s.journal.lastSeq)
      (h : JournalGrows k (s.release through).journal)
  | emptied (h : JournalGrows k State.reset.journal)

/-- Where a command answers a next state, that state has a property. -/
def NextHas (P : State → Prop) (o : Host.Outcome State Fault Refusal) : Prop := ∀ t, o = .next t → P t

theorem NextHas.next {P : State → Prop} {u : State} (h : P u) : NextHas P (.next u) :=
  fun _ e => Host.Outcome.next.inj e ▸ h

theorem NextHas.refused {P : State → Prop} (r : Refusal) : NextHas P (.refused r) := fun _ e => nomatch e

theorem NextHas.ite {P : State → Prop} {c : Prop} [Decidable c] {a b : Host.Outcome State Fault Refusal} (ha : NextHas P a)
    (hb : NextHas P b) : NextHas P (if c then a else b) := by
  split
  · exact ha
  · exact hb

/-- Where a command answers a next state, its journal has grown. -/
abbrev NextGrows (s : State) : Host.Outcome State Fault Refusal → Prop :=
  NextHas (fun t => JournalGrows t.journal s.journal)

theorem execJournalRelease_journal (p : Port) (bytes : List Byte) (s : State) :
    NextHas (fun t => JournalStep t.journal s) (execJournalRelease p bytes s) := by
  refine .next ?_
  rcases serve_journal_cases .journalRelease p bytes readThrough ownJournalRelease s with h | ⟨through, h⟩
  · exact .grows h
  · rcases ownJournalRelease_journal through (s.endRequest p (bytes.length + 1)) with e | ⟨above, held, e⟩
    · exact .grows (h.trans (.of_eq e))
    · exact .freed through above held (h.trans (.of_eq e))

theorem execFactoryClear_journal (p : Port) (bytes : List Byte) (s : State) :
    NextHas (fun t => JournalStep t.journal s) (execFactoryClear p bytes s) := by
  refine .next ?_
  rcases serve_journal_cases .factoryClear p bytes readEmpty ownFactoryClear s with h | ⟨_, h⟩
  · exact .grows h
  · exact .emptied h

theorem execColdReset_journal (s : State) : NextHas (fun t => JournalStep t.journal s) (execColdReset s) :=
  .ite (.next (.emptied (.refl _))) (.next (.grows (.refl _)))

theorem countSecond_journal (s : State) : s.countSecond.journal = s.journal := by
  unfold State.countSecond
  split_ifs <;> rfl

theorem loseLink_journal (s : State) : s.loseLink.journal = s.journal := by
  unfold State.loseLink
  split <;> rfl

theorem dockExpiry_journal_grows (s : State) (d : DockNo) : JournalGrows (s.dockExpiry d).journal s.journal := by
  unfold State.dockExpiry
  split
  · exact takeTick_journal_grows ..
  · exact (closeEvent_journal_grows ..).trans (tickDock_journal_grows ..)

/-- A warm reset appends the JOB_END records of the open jobs (R148). -/
theorem warmRecords_journal_grows (s : State) : JournalGrows s.warmRecords.journal s.journal := by
  have walked := (foldl_journal resetJob_journal_grows allSlots _).trans
    (unreserve_journal_grows s (s.countDocks (fun x => x.state.isUnlocking)))
  refine .trans ?_ walked
  unfold State.warmRecords
  exact .of_parts rfl rfl rfl

theorem execAnswerRead_grows (p : Port) (clocked : Nat) (s : State) : NextGrows s (execAnswerRead p clocked s) := by
  refine .ite (.next (.refl _)) ?_
  split <;> exact .next (.refl _)

theorem execTick_grows (takers : List TickHolder) (s : State) : NextGrows s (execTick takers s) := by
  refine .ite (.next (.of_eq (countSecond_journal s))) (.next ?_)
  refine (takeTicks_journal_grows ..).trans ((closeEvent_journal_grows ..).trans ?_)
  exact .trans (.of_eq (countSecond_journal _)) (takeTicks_journal_grows ..)

theorem execVanWindowExpiry_grows (slot : SlotNo) (s : State) : NextGrows s (execVanWindowExpiry slot s) := by
  refine .ite (.next ?_) (.next (.refl _))
  split
  · exact takeTick_journal_grows ..
  · exact (closeEvent_journal_grows ..).trans (tickJob_journal_grows ..)

theorem execStaleTimerExpiry_grows (s : State) : NextGrows s (execStaleTimerExpiry s) := by
  refine .ite (.next ?_) (.next (.refl _))
  split
  · exact (closeEvent_journal_grows ..).trans (.of_eq (loseLink_journal s))
  · exact takeTick_journal_grows ..

theorem execResetHold_grows (cause : HoldCause) (underWay : List Port) (s : State) :
    NextGrows s (execResetHold cause underWay s) :=
  .next (.of_eq (foldl_keeps State.spoil State.journal (fun _ _ => rfl) underWay _))

/-- Every command lets the journal grow, frees it through a held number or empties it. -/
theorem exec_journal (i : Instr) (s : State) : NextHas (fun t => JournalStep t.journal s) (exec i s) := by
  have grown : ∀ {o}, NextGrows s o → NextHas (fun t => JournalStep t.journal s) o := fun h t e => .grows (h t e)
  cases i with
  | journalRelease p bytes => exact execJournalRelease_journal p bytes s
  | factoryClear p bytes => exact execFactoryClear_journal p bytes s
  | coldReset => exact execColdReset_journal s
  | release p bytes => exact grown (.next (serve_journal_grows (ownRelease_journal_grows p)))
  | hold p bytes => exact grown (.next (serve_journal_grows (ownHold_journal_grows p)))
  | holdCancel p bytes => exact grown (.next (serve_journal_grows (ownHoldCancel_journal_grows p)))
  | quote p bytes => exact grown (.next (serve_journal_grows ownQuote_journal_grows))
  | topup p bytes => exact grown (.next (serve_journal_grows ownTopup_journal_grows))
  | cardStatus p bytes => exact grown (.next (serve_journal_grows ownCardStatus_journal_grows))
  | reportFault p bytes => exact grown (.next (serve_journal_grows (ownReportFault_journal_grows p)))
  | clearFault p bytes => exact grown (.next (serve_journal_grows (ownClearFault_journal_grows p)))
  | dockRestore p bytes => exact grown (.next (serve_journal_grows ownDockRestore_journal_grows))
  | faultStatus p bytes => exact grown (.next (serve_journal_grows ownFaultStatus_journal_grows))
  | fetchCommand p bytes => exact grown (.next (serve_journal_grows ownFetchCommand_journal_grows))
  | inserted p bytes => exact grown (.next (serve_journal_grows ownInserted_journal_grows))
  | removed p bytes => exact grown (.next (serve_journal_grows ownRemoved_journal_grows))
  | lockJam p bytes => exact grown (.next (serve_journal_grows (reportDockFault_journal_grows .lockJam)))
  | sensorFault p bytes =>
    exact grown (.next (serve_journal_grows (fun (req : SensorReq) => reportDockFault_journal_grows req.fault req.dock)))
  | census p bytes => exact grown (.next (serve_journal_grows ownCensus_journal_grows))
  | tokenReport p bytes => exact grown (.next (serve_journal_grows ownTokenReport_journal_grows))
  | startJob p bytes => exact grown (.next (serve_journal_grows (ownStartJob_journal_grows p)))
  | jobStatus p bytes => exact grown (.next (serve_journal_grows (ownJobStatus_journal_grows p)))
  | retireJob p bytes => exact grown (.next (serve_journal_grows (ownRetireJob_journal_grows p)))
  | abortJob p bytes => exact grown (.next (serve_journal_grows (ownAbortJob_journal_grows p)))
  | configure p bytes => exact grown (.next (serve_journal_grows ownConfigure_journal_grows))
  | clockSet p bytes => exact grown (.next (serve_journal_grows ownClockSet_journal_grows))
  | setMode p bytes => exact grown (.next (serve_journal_grows ownSetMode_journal_grows))
  | cardLoad p bytes => exact grown (.next (serve_journal_grows ownCardLoad_journal_grows))
  | cardDrop p bytes => exact grown (.next (serve_journal_grows ownCardDrop_journal_grows))
  | tariffStage p bytes => exact grown (.next (serve_journal_grows ownTariffStage_journal_grows))
  | journalRead p bytes => exact grown (.next (serve_journal_grows ownJournalRead_journal_grows))
  | dockStatus p bytes => exact grown (.next (serve_journal_grows ownDockStatus_journal_grows))
  | stationStatus p bytes => exact grown (.next (serve_journal_grows (fun _ _ => .refl _)))
  | readNotices p bytes => exact grown (.next (serve_journal_grows (fun _ _ => .refl _)))
  | setNoticeEnables p bytes => exact grown (.next (serve_journal_grows (fun _ _ => .refl _)))
  | unknownRequest p kind bytes =>
    exact grown (.ite (.next ((takeFrame_journal_grows ..).elim id id)) (.refused _))
  | answerRead p clocked => exact grown (execAnswerRead_grows p clocked s)
  | tick takers => exact grown (execTick_grows takers s)
  | holdExpiry d => exact grown (.ite (.next (dockExpiry_journal_grows s d)) (.next (.refl _)))
  | unlockWindowExpiry d => exact grown (.ite (.next (dockExpiry_journal_grows s d)) (.next (.refl _)))
  | vanWindowExpiry slot => exact grown (execVanWindowExpiry_grows slot s)
  | staleTimerExpiry => exact grown (execStaleTimerExpiry_grows s)
  | tariffSwitch => exact grown (.ite (.next (takeTick_journal_grows ..)) (.next (.refl _)))
  | resettlementSweep => exact grown (.ite (.next (.refl _)) (.next (.of_eq (sweep_journal s))))
  | resetHold cause underWay => exact grown (execResetHold_grows cause underWay s)
  | retentionLoss => exact grown (.ite (.next (.refl _)) (.next (.refl _)))
  | warmReset => exact grown (.ite (.next (warmRecords_journal_grows s)) (.next (.refl _)))
  | selectDuringHold p => exact grown (.ite (.next (.refl _)) (.next (.refl _)))
  | spoiledTransferEnd p => exact grown (.ite (.next (.refl _)) (.next (.refl _)))

theorem step_journal {s t : State} (e : step s = .next t) : JournalStep t.journal s := by
  unfold step at e
  split at e
  · cases e
    exact .grows (.refl _)
  · next c cs _ =>
    cases exec_journal c { s with pending := cs } t e with
    | grows h => exact .grows h
    | freed through above held h => exact .freed through above held h
    | emptied h => exact .emptied h

/-! ## Laws 7 and 12 -/

theorem JournalGrows.consecutive {k j : Journal} (h : JournalGrows k j) (law : j.consecutive) : k.consecutive := by
  obtain ⟨added, records, seqs, next, marker, -⟩ := h
  obtain ⟨numbers, after⟩ := law
  refine ⟨?_, by rw [next, after, marker, records, List.length_append]; omega⟩
  rw [records, marker, List.map_append, numbers, seqs, after, List.length_append, List.range'_append_1]

theorem JournalGrows.chargesBounded {k j : Journal} (h : JournalGrows k j) (law : j.chargesBounded) : k.chargesBounded := by
  obtain ⟨added, records, -, -, -, bounded⟩ := h
  intro r hr
  rw [records, List.mem_append] at hr
  exact hr.elim (law r) (bounded r)

/-- Of consecutive numbers those above one of them are consecutive. -/
theorem filter_range'_above {first count through : Nat} (h : first ≤ through + 1) :
    (List.range' first count).filter (fun n => decide (through < n))
      = List.range' (through + 1) (first + count - (through + 1)) := by
  apply List.Pairwise.eq_of_mem_iff (r := (· < ·))
  · exact (List.pairwise_lt_range' ..).filter _
  · exact List.pairwise_lt_range' ..
  · intro n
    simp only [List.mem_filter, List.mem_range'_1, decide_eq_true_eq]
    omega

/-- Law 12 is kept where the oldest records are freed through a held number (R133, R144). -/
theorem release_consecutive {s : State} {through : Nat} (above : s.journal.marker < through)
    (held : through ≤ s.journal.lastSeq) (law : s.journal.consecutive) : (s.release through).journal.consecutive := by
  obtain ⟨numbers, after⟩ := law
  have left : (s.journal.kept through).map Record.seq
      = List.range' (through + 1) (s.journal.marker + 1 + s.journal.records.length - (through + 1)) := by
    rw [← filter_range'_above (by omega), ← numbers, List.filter_map]
    rfl
  have count := congrArg List.length left
  rw [List.length_map, List.length_range'] at count
  have last : s.journal.lastSeq = s.journal.nextSeq - 1 := rfl
  refine ⟨?_, ?_⟩
  · show (s.journal.kept through).map Record.seq = List.range' (through + 1) (s.journal.kept through).length
    rw [count, left]
  · show s.journal.nextSeq = through + 1 + (s.journal.kept through).length
    omega

theorem release_chargesBounded {s : State} (through : Nat) (law : s.journal.chargesBounded) :
    (s.release through).journal.chargesBounded := fun r hr => law r (List.mem_of_mem_filter hr)

theorem reset_consecutive : State.reset.journal.consecutive := ⟨rfl, rfl⟩

theorem reset_chargesBounded : State.reset.journal.chargesBounded := fun _ h => absurd h List.not_mem_nil

/-- Settles O52: each law is kept by records appended one at a time, by the freeing of the oldest and by the empty journal. -/
theorem stepKeepsJournalLaws : Obligations.StepKeepsJournalLaws := by
  unfold Obligations.StepKeepsJournalLaws
  constructor
  · intro s t law e
    cases step_journal e with
    | grows h => exact h.consecutive law
    | freed through above held h => exact h.consecutive (release_consecutive above held law)
    | emptied h => exact h.consecutive reset_consecutive
  · intro s t law e
    cases step_journal e with
    | grows h => exact h.chargesBounded law
    | freed through _ _ h => exact h.chargesBounded (release_chargesBounded through law)
    | emptied h => exact h.chargesBounded reset_chargesBounded

end Sys2Proof.Machine.JournalLaws
end

section
/-! PROOFS. The clock's count, a tick at hand and what each holder's work leaves of the timebase (R10, R123, R149 to R153). -/

namespace Sys2Proof.Machine.ClockLaws

open Sys2Proof.Machine.Laws

/-! ## The count (R149) -/

theorem countSecond_counts {s : State} (valid : s.time.clockValid = true) (below : s.time.clock < Config.clockMax) :
    s.countSecond = { s with time := { s.time with clock := s.time.clock + 1 } } := by
  unfold State.countSecond
  rw [if_pos valid, if_neg (Nat.not_le_of_lt below)]

theorem countSecond_overflows {s : State} (valid : s.time.clockValid = true) (top : Config.clockMax ≤ s.time.clock) :
    s.countSecond = { s with time := { s.time with clockValid := false } } := by
  unfold State.countSecond
  rw [if_pos valid, if_pos top]

theorem countSecond_stands {s : State} (invalid : s.time.clockValid = false) : s.countSecond = s := by
  unfold State.countSecond
  rw [if_neg (by rw [invalid]; exact Bool.false_ne_true)]

/-- The count writes the clock value and the valid flag alone. -/
theorem countSecond_eq (s : State) :
    s.countSecond = { s with time := { s.time with clock := s.countSecond.time.clock,
                                                   clockValid := s.countSecond.time.clockValid } } := by
  unfold State.countSecond
  split_ifs <;> rfl

/-! ## A tick at hand (R150) -/

/-- A holder takes the tick handed to it as an event of its own. -/
theorem takeTick_handed {s : State} {holder : TickHolder} (h : s.time.handed.get holder = true) :
    s.takeTick holder = (State.holderWork holder
      { s with time := { s.time with handed := s.time.handed.clear holder } }).closeEvent s := if_pos h

/-- A holder to which no tick is handed takes nothing. -/
theorem takeTick_none {s : State} {holder : TickHolder} (h : s.time.handed.get holder = false) : s.takeTick holder = s :=
  if_neg (by rw [h]; exact Bool.false_ne_true)

theorem takeTicks_none {s : State} (h : s.time.handed = noneHanded) (l : List TickHolder) : l.foldl State.takeTick s = s := by
  induction l with
  | nil => rfl
  | cons holder rest ih => rw [List.foldl_cons, takeTick_none (by rw [h]; cases holder <;> rfl), ih]

/-! ## The timebase under the holders' work -/

theorem tickDock_time (s : State) (d : DockNo) : (s.tickDock d).time = s.time := by
  unfold State.tickDock
  split
  · split <;> simp [State.expireHold]
  · split <;> simp [State.expireRelease, State.lapseRelease, State.endLapsed]
  all_goals rfl

theorem tickDocks_time (s : State) : s.tickDocks.time = s.time := foldl_keeps State.tickDock State.time tickDock_time _ s

theorem returnDock_time (s : State) (d : DockNo) : (s.returnDock d).time = s.time := by
  unfold State.returnDock
  split <;> rfl

theorem cutJob_time (s : State) (slot : SlotNo) (j : JobRecord) (add : EndConditions → EndConditions) :
    (s.cutJob slot j add).time = s.time := by
  have returned := foldl_keeps State.returnDock State.time returnDock_time j.openDocks s
  unfold State.cutJob
  dsimp only
  rw [endJob_time]
  split
  · rw [giveUp_time, returned]
  · exact returned

theorem tickJob_time (s : State) (slot : SlotNo) : (s.tickJob slot).time = s.time := by
  unfold State.tickJob
  split
  · rfl
  · split
    · rfl
    · split
      · exact cutJob_time ..
      · rfl

theorem tickJobs_time (s : State) : s.tickJobs.time = s.time := foldl_keeps State.tickJob State.time tickJob_time _ s

theorem switchTariff_time (s : State) : s.switchTariff.time = s.time := by
  unfold State.switchTariff
  split <;> rfl

/-- A link lost is OFFLINE, with the notices of R153; an OFFLINE one stands. -/
theorem loseLink_eq (s : State) :
    s.loseLink = { s with time := { s.time with link := .offline }, ports := s.loseLink.ports } := by
  unfold State.loseLink
  cases h : s.time.link with
  | online => rfl
  | offline =>
    dsimp only
    rw [← h]

/-- What the clock shows: its value and its valid flag. -/
def reading (s : State) : Nat × Bool := (s.time.clock, s.time.clockValid)

theorem reading_congr {t s : State} (h : t.time = s.time) : reading t = reading s := by
  unfold reading
  rw [h]

/-- What the count makes of the clock is read off the clock. -/
theorem countSecond_reading {t s : State} (h : reading t = reading s) : reading t.countSecond = reading s.countSecond := by
  simp only [reading, Prod.mk.injEq] at h
  obtain ⟨clock, valid⟩ := h
  unfold State.countSecond
  rw [clock, valid]
  split_ifs <;> simp only [reading, clock, valid]

/-- No holder's work writes the clock. -/
theorem holderWork_reading (holder : TickHolder) (s : State) : reading (State.holderWork holder s) = reading s := by
  cases holder
  case docks => exact reading_congr (tickDocks_time s)
  case vans => exact reading_congr (tickJobs_time s)
  case fares => exact reading_congr (switchTariff_time s)
  case stale =>
    show reading (State.tickStale s) = _
    unfold State.tickStale
    dsimp only
    split
    · rw [loseLink_eq]
      rfl
    · rfl

theorem takeTick_reading (s : State) (holder : TickHolder) : reading (s.takeTick holder) = reading s := by
  unfold State.takeTick
  split
  · rw [reading_congr (closeEvent_time ..), holderWork_reading]
    rfl
  · rfl

theorem takeTicks_reading (l : List TickHolder) (s : State) : reading (l.foldl State.takeTick s) = reading s :=
  foldl_keeps State.takeTick reading takeTick_reading l s

/-! ## The end of an event that writes no journal -/

theorem closeEvent_same {u s : State} (h : u.journal = s.journal) : u.closeEvent s = (u.sweep).reckonLines s := by
  unfold State.closeEvent
  rw [reckonMode_same h]

/-- Such an event sets no notice at its end but the sweep's COMMAND_WAITING (R45, R136). -/
theorem closeEvent_notified {u s : State} (h : u.journal = s.journal) (q : Port) {k : Notice} (hk : k ≠ .commandWaiting) :
    (u.closeEvent s).notified q k ↔ u.notified q k := by
  rw [closeEvent_same h, reckonLines_notified, RideLaws.sweep_notified]
  simp [hk]

theorem settlesAs_dock {t u : State} (h : t.settlesAs u) (d : DockNo) : t.dock d = u.dock d := by
  unfold State.dock
  rw [(RideLaws.sweptFrom_rail h.2).1]
  rfl

end Sys2Proof.Machine.ClockLaws
end

section
/-! PROOFS. QUOTE, TARIFF_STAGE and the switch (R50, R51, R64). -/

namespace Sys2Proof.Machine.FareLaws

open Sys2Proof.Machine.Laws

/-! ## QUOTE -/

/-- The checks of a QUOTE in their order (R64). -/
theorem ownQuote_refuses {req : QuoteReq} {s : State} {reason : RefusalReason}
    (h : firstFailing [(!s.time.clockValid, .clockUnset), (s.fares.plan0.isNone, .noTariff),
      ((s.card req.card).isNone, .unknownCard)] = some reason) : ownQuote req s = refuse reason s := by
  unfold ownQuote
  cases clock : s.time.clockValid with
  | false => simp_all [firstFailing]
  | true =>
    cases plan : s.fares.plan0 with
    | none => simp_all [firstFailing]
    | some p0 =>
      cases card : s.card req.card with
      | none => simp_all [firstFailing]
      | some c => simp [firstFailing, clock, plan, card] at h

/-- The plan that an index resolves to: its own, or plan 0 in an EMPTY one's place (R52). -/
theorem resolve_eq {f : Fares} {index : Fin 8} {plan : Plan} {substituted : Bool}
    (h : (f.active[index] = some plan ∧ f.active[(0 : Fin 8)].isSome = true ∧ substituted = false)
      ∨ (f.active[index] = none ∧ f.active[(0 : Fin 8)] = some plan ∧ substituted = true)) :
    f.resolve index = some (plan, substituted) := by
  unfold Fares.resolve Fares.plan0
  rcases h with ⟨own, plan0, rfl⟩ | ⟨empty, plan0, rfl⟩
  · obtain ⟨p0, hp⟩ := Option.isSome_iff_exists.1 plan0
    rw [hp, own]
  · rw [plan0, empty]

theorem plan0_of_resolve {f : Fares} {index : Fin 8} {x : Plan × Bool} (h : f.resolve index = some x) :
    ∃ p0, f.plan0 = some p0 := by
  cases hp : f.plan0 with
  | none => rw [RideLaws.resolve_none hp] at h; cases h
  | some p0 => exact ⟨p0, rfl⟩

/-- The figures that a QUOTE answers, from those of its fare (R64). -/
def quoteView (f : FareFigures) (index : Fin 8) (provisional substituted : Bool) : QuoteView :=
  { baseBlocks := f.baseBlocks, overstayBlocks := f.overstayBlocks, gross := f.gross, discounted := f.discounted,
    capped := f.capped, surchargeCharged := f.surchargeCharged, baseCharged := f.baseCharged, charge := f.charge,
    tariffUsed := if substituted then 0 else index, freeMinutes := f.freeMinutes, passApplied := f.passApplied,
    flags := { deferred := provisional, clockSuspect := false, durationClamped := false, saturated := f.saturated,
               balanceLimit := false, tariffSubstituted := substituted } }

/-- The card fields a QUOTE reads: the entry's, or the deferred defaults for a provisional one (R64). -/
def quoteBasis (s : State) (c : CardEntry) : FareBasis :=
  if c.provisional then { kind := .payg, discount := 0, charged := 0, day := s.today }
  else { kind := c.kind, discount := c.discount, charged := c.charged, day := c.day }

theorem ownQuote_accepts {req : QuoteReq} {s : State} {c : CardEntry} {plan : Plan} {substituted : Bool}
    (clock : s.time.clockValid = true) (card : s.card req.card = some c)
    (resolved : s.fares.resolve (if c.provisional then 0 else c.tariff) = some (plan, substituted)) :
    ownQuote req s = accept (.quoted (quoteView (fareFigures plan (quoteBasis s c) s.today s.today req.duration)
      (if c.provisional then 0 else c.tariff) c.provisional substituted)) s := by
  obtain ⟨p0, plan0⟩ := plan0_of_resolve resolved
  unfold ownQuote
  rw [if_pos clock, plan0]
  dsimp only
  rw [card]
  dsimp only
  rw [resolved]
  rfl

/-- Settles O21: a failing check refuses, and otherwise the figures are answered and no record is written. -/
theorem quoteComputesAndChangesNothing : Obligations.QuoteComputesAndChangesNothing := by
  unfold Obligations.QuoteComputesAndChangesNothing
  intro s p bytes req h
  constructor
  · intro reason fails
    obtain ⟨answered, unchanged⟩ := RideLaws.serve_refused h (owner := ownQuote) (ownQuote_refuses fails)
    exact ⟨_, rfl, answered, unchanged⟩
  · intro c index plan substituted clock card hindex plans basis f
    subst hindex
    have accepted : ownQuote req (s.endRequest p (bytes.length + 1))
        = accept (.quoted (quoteView f _ c.provisional substituted)) (s.endRequest p (bytes.length + 1)) :=
      ownQuote_accepts clock card (resolve_eq plans)
    have run := serve_takes h ownQuote
    rw [accepted] at run
    obtain ⟨answered, informs⟩ := finish_inform s p ReqKind.quote.code bytes
      (.quoted (quoteView f _ c.provisional substituted)) (bytes.length + 1)
    exact ⟨_, congrArg Host.Outcome.next run, answered, informs⟩

/-! ## TARIFF_STAGE -/

theorem sound_iff (x : StagedSet) : x.sound = true ↔
    x.entries ≠ [] ∧ (x.entries.map (fun e => e.index)).Nodup ∧ ∀ e ∈ x.entries, e.index = 0 → e.plan ≠ none := by
  unfold StagedSet.sound
  simp only [Bool.and_eq_true, Bool.not_eq_true', List.isEmpty_eq_false_iff, decide_eq_true_eq, List.all_eq_true,
    Bool.or_eq_true, bne_iff_ne, ← Option.isSome_iff_ne_none, and_assoc, imp_iff_not_or, ne_eq]

theorem ownTariffStage_refuses {req : StagedSet} (h : ¬ req.sound = true) (s : State) :
    ownTariffStage req s = refuse .outOfRange s := if_neg h

theorem ownTariffStage_accepts {req : StagedSet} (h : req.sound = true) (s : State) :
    ownTariffStage req s
      = accept (.staged req.effective req.entries.length (s.fares.staged.map (fun x => x.effective)))
          { s with fares := { s.fares with staged := some req } } := if_pos h

/-! ## The switch -/

/-- Of several entries at an index the last one's plan stands (R51). -/
theorem switchIn_get (entries : List StagedEntry) (active : Vector (Option Plan) 8) (i : Fin 8) :
    (switchIn entries active)[i] =
      match entries.reverse.find? (fun e => e.index == i) with
      | some e => e.plan
      | none => active[i] := by
  unfold switchIn
  induction entries generalizing active with
  | nil => rfl
  | cons e es ih =>
    rw [List.foldl_cons, ih, List.reverse_cons, List.find?_append]
    cases es.reverse.find? (fun e => e.index == i) with
    | some x => rfl
    | none =>
      by_cases h : e.index = i
      · subst h
        simp
      · have ne : e.index.val ≠ i.val := fun q => h (Fin.ext q)
        simp [h, Vector.getElem_set_ne _ _ ne]

theorem dueSet_eq_some {s : State} {x : StagedSet} :
    s.dueSet = some x ↔ s.fares.staged = some x ∧ s.time.clockValid = true ∧ x.effective ≤ s.time.clock := by
  unfold State.dueSet
  cases s.fares.staged with
  | none => simp
  | some y =>
    dsimp only
    split
    · next due =>
      obtain ⟨clock, time⟩ := due
      constructor
      · rintro ⟨⟩
        exact ⟨rfl, clock, time⟩
      · rintro ⟨⟨⟩, -⟩
        rfl
    · next due =>
      constructor
      · nofun
      · rintro ⟨⟨⟩, clock, time⟩
        exact absurd ⟨clock, time⟩ due

/-- What a due switch writes (R51). -/
theorem switchTariff_due {s : State} {x : StagedSet} (h : s.dueSet = some x) :
    s.switchTariff = (State.notify .terminal .tariffSwitched
      { s with fares := { active := switchIn x.entries s.fares.active, staged := none } }).notify .uplink .tariffSwitched := by
  unfold State.switchTariff
  rw [h]

theorem execTariffSwitch_idle {s : State} (h : s.held = true ∨ s.time.handed.fares = false ∨ s.dueSet = none) :
    exec .tariffSwitch s = .next s := by
  refine if_neg fun q => ?_
  simp only [Bool.and_eq_true, Bool.not_eq_true'] at q
  rcases h with h | h | h <;> simp [h] at q

theorem execTariffSwitch_due {s : State} (h : s.held = false) (handed : s.time.handed.fares = true) {x : StagedSet}
    (due : s.dueSet = some x) : exec .tariffSwitch s = .next (s.takeTick .fares) := by
  refine if_pos ?_
  simp [h, handed, due]

/-- Settles O22: the owner's checks on the staged list, and the switch as the fare unit's tick finds it due or not. -/
theorem stagedSetReplacedAndSwitched : Obligations.StagedSetReplacedAndSwitched := by
  unfold Obligations.StagedSetReplacedAndSwitched
  refine ⟨fun s p bytes req h => ⟨fun unsound => ?_, fun nonempty nodup defined => ?_⟩, fun s idle => ?_,
    fun s x out handed clock staged time => ?_⟩
  · have refused : ¬ req.sound = true := by
      rw [sound_iff]
      rintro ⟨nonempty, nodup, defined⟩
      rcases unsound with empty | twice | ⟨e, he, zero, retired⟩
      · exact nonempty empty
      · exact twice nodup
      · exact defined e he zero retired
    obtain ⟨answered, unchanged⟩ := RideLaws.serve_refused h (ownTariffStage_refuses refused _)
    exact ⟨_, rfl, answered, unchanged⟩
  · have sound := (sound_iff req).2 ⟨nonempty, nodup, defined⟩
    obtain ⟨answered, ends, kept, -⟩ := RideLaws.serve_accepted h rfl (ownTariffStage_accepts sound _) (.of_ports rfl)
    exact ⟨_, rfl, answered, kept, endsAs_congr ends rfl⟩
  · refine execTariffSwitch_idle ?_
    rcases idle with held | untaken | clock | unstaged | ⟨x, staged, early⟩
    · exact Or.inl held
    · exact Or.inr (Or.inl untaken)
    all_goals
      refine Or.inr (Or.inr (Option.eq_none_iff_forall_ne_some.2 fun y due => ?_))
      obtain ⟨staged', clock', time⟩ := dueSet_eq_some.1 due
    · rw [clock] at clock'
      cases clock'
    · rw [unstaged] at staged'
      cases staged'
    · rw [staged] at staged'
      cases staged'
      omega
  · have due : s.dueSet = some x := dueSet_eq_some.2 ⟨staged, clock, time⟩
    let taken : State := { s with time := { s.time with handed := s.time.handed.clear .fares } }
    have work : State.holderWork .fares taken
        = (State.notify .terminal .tariffSwitched
            { taken with fares := { active := switchIn x.entries s.fares.active, staged := none } }).notify
          .uplink .tariffSwitched := switchTariff_due due
    have run := ClockLaws.takeTick_handed (holder := .fares) handed
    rw [work] at run
    have fares : (s.takeTick .fares).fares = { active := switchIn x.entries s.fares.active, staged := none } := by
      rw [run, closeEvent_fares]
      rfl
    have follow := fun u : State => closeEvent_follow u s
    refine ⟨_, execTariffSwitch_due out handed due, fun i => ?_, by rw [fares], ?_, ?_, ?_⟩
    · rw [fares]
      exact switchIn_get ..
    · rw [run]
      exact (follow _).notified ((notify_grows ..).notified (notify_notified ..))
    · rw [run]
      exact (follow _).notified (notify_notified ..)
    · rw [fares, run]
      exact settlesAs_congr (closeEvent_settlesAs ..) rfl

end Sys2Proof.Machine.FareLaws
end

section
/-! PROOFS. TICK and STALE_TIMER_EXPIRY (R149, R150, R153, R162). -/

namespace Sys2Proof.Machine.ClockLaws

open Sys2Proof.Machine.Laws

/-! ## TICK -/

/-- A held part counts the clock and nothing else (R162). -/
theorem execTick_held {s : State} (h : s.held = true) (takers : List TickHolder) :
    exec (.tick takers) s = .next s.countSecond := if_pos h

/-- Out of the hold the ticks at hand are taken, and the timebase's own event counts and hands one out (R150). -/
theorem execTick_out {s : State} (h : s.held = false) (takers : List TickHolder) :
    let before := allHolders.foldl State.takeTick s
    exec (.tick takers) s = .next (takers.foldl State.takeTick (before.countSecond.handTick.closeEvent before)) :=
  if_neg (by rw [h]; exact Bool.false_ne_true)

theorem execTick_untaken {s : State} (h : s.held = false) (untaken : s.time.handed = noneHanded) (takers : List TickHolder) :
    exec (.tick takers) s = .next (takers.foldl State.takeTick (s.countSecond.handTick.closeEvent s)) := by
  have run := execTick_out h takers
  rwa [takeTicks_none untaken] at run

/-- Whoever takes the tick, the clock shows what the count makes of it (R149). -/
theorem execTick_reading (s : State) (takers : List TickHolder) :
    ∃ t, exec (.tick takers) s = .next t ∧ reading t = reading s.countSecond ∧ (s.held = true → t = s.countSecond) := by
  cases h : s.held with
  | true => exact ⟨_, execTick_held h takers, rfl, fun _ => rfl⟩
  | false =>
    refine ⟨_, execTick_out h takers, ?_, nofun⟩
    rw [takeTicks_reading, reading_congr (closeEvent_time ..)]
    exact countSecond_reading (takeTicks_reading allHolders s)

/-- The tick handed out writes the count and the four flags. -/
theorem handTick_eq (s : State) :
    s.countSecond.handTick =
      { s with time := { s.time with clock := s.countSecond.time.clock, clockValid := s.countSecond.time.clockValid,
                                     handed := ⟨true, true, s.countSecond.time.clockValid, true⟩ } } := by
  unfold State.handTick
  conv_lhs => rw [countSecond_eq]

/-- The timebase's own event of a tick (R150): the count, the tick handed out, and the sweep at its end. -/
theorem ownEvent_settles (s : State) :
    let t := s.countSecond.handTick.closeEvent s
    t.time.handed = ⟨true, true, t.time.clockValid, true⟩
      ∧ t.settlesAs { s with time := { s.time with clock := t.time.clock, clockValid := t.time.clockValid,
                                                   handed := ⟨true, true, t.time.clockValid, true⟩ } }
      ∧ t.journal.mode = s.journal.mode := by
  intro t
  have time : t.time = s.countSecond.handTick.time := closeEvent_time ..
  have journal : s.countSecond.handTick.journal = s.journal := by rw [handTick_eq]
  refine ⟨by rw [time]; rfl, ?_, ?_⟩
  · have settles : t.settlesAs s.countSecond.handTick := closeEvent_settlesAs ..
    rw [handTick_eq s] at settles
    rw [time]
    exact settles
  · show (s.countSecond.handTick.closeEvent s).journal.mode = _
    rw [closeEvent_same journal, reckonLines_journal, sweep_journal, journal]

/-- The dock table controller's event: the handed flag falls, and every dock countdown takes the tick (R10). -/
theorem takeTick_docks {s : State} (h : s.time.handed.docks = true) :
    (s.takeTick .docks).time = { s.time with handed := { s.time.handed with docks := false } }
      ∧ ∀ d, (s.takeTick .docks).dock d = (s.dock d).ticked := by
  rw [takeTick_handed (holder := .docks) h]
  refine ⟨?_, fun d => ?_⟩
  · rw [closeEvent_time]
    exact tickDocks_time _
  · rw [settlesAs_dock (closeEvent_settlesAs ..)]
    exact tickDocks_dock ..

/-! ## STALE_TIMER_EXPIRY -/

theorem countdownDue_iff (handed : Bool) (left : Nat) :
    countdownDue handed left = true ↔ left = 0 ∨ (handed = true ∧ left = 1) := by
  simp [countdownDue]

theorem execStaleTimerExpiry_idle {s : State}
    (h : s.held = true ∨ 2 ≤ s.time.staleTimer ∨ (s.time.handed.stale = false ∧ 1 ≤ s.time.staleTimer)) :
    exec .staleTimerExpiry s = .next s := by
  refine if_neg fun q => ?_
  simp only [countdownDue_iff, Bool.and_eq_true, Bool.not_eq_true'] at q
  obtain ⟨out, due⟩ := q
  rcases h with held | far | ⟨untaken, left⟩
  · rw [held] at out
    cases out
  · omega
  · rcases due with zero | ⟨taken, -⟩
    · omega
    · rw [untaken] at taken
      cases taken

theorem execStaleTimerExpiry_due {s : State} (out : s.held = false) (handed : s.time.handed.stale = true)
    (one : s.time.staleTimer = 1) : exec .staleTimerExpiry s = .next (s.takeTick .stale) := by
  have due : (!s.held && countdownDue s.time.handed.stale s.time.staleTimer) = true := by
    simp [out, countdownDue, handed, one]
  exact (if_pos due).trans (congrArg Host.Outcome.next (if_neg (by omega)))

/-- A link lost sets LINK_CHANGED at the terminal and service ports where it was ONLINE (R153). -/
theorem loseLink_notified (s : State) (q : Port) (k : Notice) :
    s.loseLink.notified q k ↔
      s.notified q k ∨ (s.time.link = .online ∧ k = .linkChanged ∧ (q = .terminal ∨ q = .service)) := by
  unfold State.loseLink
  cases h : s.time.link with
  | online =>
    dsimp only
    rw [notified_notify, notified_notify, notified_congr (s := s) rfl]
    tauto
  | offline => simp

/-- Settles O42: the clock by its count, the hand-out by the timebase's own event, and the stale timer's end by the link it
finds. -/
theorem tickAndStaleTimer : Obligations.TickAndStaleTimer := by
  unfold Obligations.TickAndStaleTimer
  refine ⟨⟨fun s takers => ?_, fun s out untaken => ?_, fun s out untaken => ?_⟩, fun s idle => execStaleTimerExpiry_idle idle,
    fun s out handed one => ?_⟩
  · obtain ⟨t, run, shows, held⟩ := execTick_reading s takers
    simp only [reading, Prod.mk.injEq] at shows
    obtain ⟨clock, flag⟩ := shows
    refine ⟨t, run, fun valid below => ?_, fun valid top => ?_, fun invalid => ?_, fun h => ?_⟩
    · rw [clock, flag, countSecond_counts valid below]
      exact ⟨rfl, valid⟩
    · rw [clock, flag, countSecond_overflows valid (Nat.le_of_eq top.symm)]
      exact ⟨rfl, rfl⟩
    · rw [clock, flag, countSecond_stands invalid]
      exact ⟨rfl, invalid⟩
    · rw [clock, flag, ← countSecond_eq]
      exact held h
  · obtain ⟨-, settles, mode⟩ := ownEvent_settles s
    exact ⟨_, execTick_untaken out untaken [], settles, mode⟩
  · obtain ⟨flags, settles, -⟩ := ownEvent_settles s
    obtain ⟨time, docks⟩ := takeTick_docks (s := s.countSecond.handTick.closeEvent s) (by rw [flags])
    refine ⟨_, execTick_untaken out untaken [.docks], ?_, fun d => ?_⟩
    · show (State.takeTick _ .docks).time.handed = ⟨false, true, (State.takeTick _ .docks).time.clockValid, true⟩
      rw [time, flags]
    · exact (docks d).trans (congrArg Dock.ticked (settlesAs_dock settles d))
  · let fallen : State :=
      { s with time := { s.time with staleTimer := 0, handed := { s.time.handed with stale := false } } }
    have work : State.holderWork .stale { s with time := { s.time with handed := s.time.handed.clear .stale } }
        = fallen.loseLink := by
      show State.tickStale _ = _
      unfold State.tickStale
      dsimp only
      rw [one]
      rfl
    have run := takeTick_handed (holder := .stale) handed
    rw [work] at run
    have journal : fallen.loseLink.journal = s.journal := by rw [loseLink_eq]
    have notices := fun q => closeEvent_notified journal q (k := .linkChanged) (by decide)
    refine ⟨_, execStaleTimerExpiry_due out handed one, ?_, fun online => ?_, fun offline q => ?_⟩
    · rw [run]
      refine settlesAs_congr (closeEvent_settlesAs ..) ?_
      conv_rhs => rw [loseLink_eq]
    · rw [run, notices, notices, loseLink_notified, loseLink_notified]
      exact ⟨Or.inr ⟨online, rfl, Or.inl rfl⟩, Or.inr ⟨online, rfl, Or.inr rfl⟩⟩
    · rw [run, notices, loseLink_notified, notified_congr (t := fallen) (s := s) rfl]
      simp [fallen, offline]

end Sys2Proof.Machine.ClockLaws
end

section
/-! PROOFS. What each operation makes of the card table and of the records that name its cards: the order and the size of the
table, Law 6 and Law 4 are kept (R65, R68, R72). -/

namespace Sys2Proof.Machine.CardLaws

open Sys2Proof.Machine.Laws

/-! ## The laws of the card table -/

/-- A balance lies in its range (R72). -/
def BalanceSound (balance : Int) : Prop := Config.balanceFloor ≤ balance ∧ balance ≤ Config.balanceCeiling

/-- Each law of the card table that holds of the station `u` holds of `t`: the order and the size (R65), Law 6 (R72) and Law 4
(R68). -/
structure BooksKept (t u : State) : Prop where
  ordered : u.cardsOrdered → t.cardsOrdered
  balances : u.balancesInRange → t.balancesInRange
  counts : u.countsAgree → t.countsAgree

theorem BooksKept.trans {t v u : State} (h1 : BooksKept t v) (h2 : BooksKept v u) : BooksKept t u :=
  ⟨h1.ordered ∘ h2.ordered, h1.balances ∘ h2.balances, h1.counts ∘ h2.counts⟩

/-- The laws read the card table and the held records alone. -/
theorem BooksKept.of_parts {t u : State} (cards : t.cards = u.cards) (records : t.journal.records = u.journal.records) :
    BooksKept t u := by
  refine ⟨fun h => ?_, fun h => ?_, countsAgree_congr records (fun c hc => ⟨c, cards ▸ hc, rfl, rfl⟩)⟩
  · unfold State.cardsOrdered
    rw [cards]
    exact h
  · unfold State.balancesInRange
    rw [cards]
    exact h

/-- What is written after an operation outside the card table and the held records keeps what the operation kept. -/
theorem BooksKept.written {t v u : State} (h : BooksKept v u) (cards : t.cards = v.cards)
    (records : t.journal.records = v.journal.records) : BooksKept t u := (BooksKept.of_parts cards records).trans h

theorem BooksKept.refl (u : State) : BooksKept u u := .of_parts rfl rfl

/-- A walk whose every step keeps the laws keeps them. -/
theorem foldl_books {α : Type} {f : State → α → State} (h : ∀ s x, BooksKept (f s x) s) (l : List α) (s : State) :
    BooksKept (l.foldl f s) s :=
  foldl_invariant f (fun u => BooksKept u s) (fun u x hu => (h u x).trans hu) l s (.refl s)

/-! ## Entries rewritten -/

/-- Rewriting the entries keeps the order and the size where it keeps every card number. -/
theorem BooksKept.of_map {t s : State} {g : CardEntry → CardEntry} (cards : t.cards = s.cards.map g)
    (number : ∀ c ∈ s.cards, (g c).number = c.number)
    (balance : s.balancesInRange → ∀ c ∈ s.cards, BalanceSound (g c).balance)
    (counts : s.countsAgree → t.countsAgree) : BooksKept t s := by
  refine ⟨fun ⟨order, size⟩ => ⟨?_, ?_⟩, fun law c hc => ?_, counts⟩
  · rw [cards, List.pairwise_map]
    exact order.imp_of_mem fun ha hb less => by rw [number _ ha, number _ hb]; exact less
  · rw [cards, List.length_map]
    exact size
  · rw [cards] at hc
    obtain ⟨x, hx, rfl⟩ := List.mem_map.1 hc
    exact balance law x hx

/-- Writing the entry of one card keeps the laws where the new entry has its number and its count and a balance in range. -/
theorem modifyCard_books {s : State} {n : Nat} {f : CardEntry → CardEntry}
    (number : ∀ c : CardEntry, c.number = n → (f c).number = n)
    (balance : s.balancesInRange → ∀ c ∈ s.cards, c.number = n → BalanceSound (f c).balance)
    (count : s.countsAgree → ∀ c ∈ s.cards, c.number = n → (f c).refCount = c.refCount) : BooksKept (s.modifyCard n f) s := by
  have number' : ∀ c : CardEntry, (if c.number = n then f c else c).number = c.number := fun c => by
    split
    · next h => rw [number c h, h]
    · rfl
  refine .of_map rfl (fun c _ => number' c) (fun law c hc => ?_) (fun law => countsAgree_congr (s := s) rfl (fun c hc => ?_) law)
  · split
    · next h => exact balance law c hc h
    · exact law c hc
  · obtain ⟨x, hx, rfl⟩ := List.mem_map.1 hc
    refine ⟨x, hx, (number' x).symm, ?_⟩
    split
    · next h => exact (count law x hx h).symm
    · rfl

/-- Writing the docks and the last-use time of an entry keeps the laws: they read neither (R69, R71). -/
theorem modifyCard_books_of_same {s : State} {n : Nat} {f : CardEntry → CardEntry} (number : ∀ c, (f c).number = c.number)
    (balance : ∀ c, (f c).balance = c.balance) (count : ∀ c, (f c).refCount = c.refCount) : BooksKept (s.modifyCard n f) s :=
  modifyCard_books (fun c h => (number c).trans h) (fun law c hc _ => by rw [balance]; exact law c hc)
    (fun _ c _ _ => count c)

theorem clearInFlight_books (s : State) (card : Nat) : BooksKept (s.clearInFlight card) s :=
  modifyCard_books_of_same (fun _ => rfl) (fun _ => rfl) (fun _ => rfl)

theorem clearHoldDock_books (s : State) (card : Nat) : BooksKept (s.clearHoldDock card) s :=
  modifyCard_books_of_same (fun _ => rfl) (fun _ => rfl) (fun _ => rfl)

/-! ## Entries removed and made -/

/-- Entries removed keep the laws of those that stay. -/
theorem BooksKept.of_sublist {t s : State} (cards : t.cards.Sublist s.cards)
    (records : t.journal.records = s.journal.records) : BooksKept t s :=
  ⟨fun ⟨order, size⟩ => ⟨order.sublist cards, cards.length_le.trans size⟩, fun law c hc => law c (cards.subset hc),
    countsAgree_congr records (fun c hc => ⟨c, cards.subset hc, rfl, rfl⟩)⟩

theorem mem_insertCard {e c : CardEntry} {cards : List CardEntry} : c ∈ insertCard e cards ↔ c = e ∨ c ∈ cards := by
  induction cards with
  | nil => simp [insertCard]
  | cons x xs ih =>
    rw [insertCard]
    split
    · exact List.mem_cons
    · rw [List.mem_cons, ih, List.mem_cons]
      tauto

theorem insertCard_length (e : CardEntry) (cards : List CardEntry) : (insertCard e cards).length = cards.length + 1 := by
  induction cards with
  | nil => rfl
  | cons x xs ih =>
    rw [insertCard]
    split
    · rfl
    · rw [List.length_cons, ih, List.length_cons]

/-- A new entry goes to its place in the order (R65). -/
theorem insertCard_ordered {e : CardEntry} {cards : List CardEntry} (absent : ∀ c ∈ cards, c.number ≠ e.number)
    (order : cards.Pairwise (fun a b => a.number < b.number)) :
    (insertCard e cards).Pairwise (fun a b => a.number < b.number) := by
  induction cards with
  | nil => exact List.pairwise_singleton ..
  | cons x xs ih =>
    obtain ⟨first, rest⟩ := List.pairwise_cons.1 order
    have apart := absent x List.mem_cons_self
    rw [insertCard]
    split
    · next before =>
      refine List.pairwise_cons.2 ⟨fun c hc => ?_, order⟩
      rcases List.mem_cons.1 hc with rfl | hc
      · exact before
      · exact before.trans (first c hc)
    · next after =>
      refine List.pairwise_cons.2 ⟨fun c hc => ?_, ih (fun c hc => absent c (List.mem_cons_of_mem _ hc)) rest⟩
      rcases mem_insertCard.1 hc with rfl | hc
      · omega
      · exact first c hc

theorem findCard_eq_none {n : Nat} {cards : List CardEntry} : findCard n cards = none ↔ ∀ c ∈ cards, c.number ≠ n := by
  simp [findCard, List.find?_eq_none]

/-- The room found for a new entry leaves a part of the table, with a place free where the table held its size (R70). -/
theorem roomForCard_left {cards left : List CardEntry} {evicted : Option Nat} (h : roomForCard cards = some (left, evicted)) :
    left.Sublist cards ∧ (cards.length ≤ Config.cardPlaces → left.length < Config.cardPlaces) := by
  unfold roomForCard at h
  split at h
  · next free =>
    cases h
    exact ⟨List.Sublist.refl _, fun _ => free⟩
  · split at h
    · next c hc =>
      cases h
      refine ⟨List.filter_sublist, fun size => lt_of_lt_of_le ?_ size⟩
      exact List.length_filter_lt_length_iff_exists.2
        ⟨c, List.mem_of_mem_filter (RideLaws.pickBest_mem hc), by simp⟩
    · cases h

/-- A new entry keeps the laws where its card had none, its balance lies in range and its count is that of the held records
that name the card (R65, R70, R75). -/
theorem insertCard_books {s : State} {e : CardEntry} {room : List CardEntry × Option Nat}
    (absent : s.card e.number = none) (found : roomForCard s.cards = some room) (balance : BalanceSound e.balance)
    (count : e.refCount = namingCount e.number s.journal.records) :
    BooksKept { s with cards := insertCard e room.1 } s := by
  obtain ⟨part, size⟩ := roomForCard_left found
  have absent := findCard_eq_none.1 absent
  refine ⟨fun law => ⟨?_, ?_⟩, fun law c hc => ?_, fun law c hc => ?_⟩
  · exact insertCard_ordered (fun c hc => absent c (part.subset hc)) (law.1.sublist part)
  · show (insertCard e room.1).length ≤ _
    rw [insertCard_length]
    exact size law.2
  · rcases mem_insertCard.1 hc with rfl | hc
    · exact balance
    · exact law c (part.subset hc)
  · rcases mem_insertCard.1 hc with rfl | hc
    · exact count
    · exact law c (part.subset hc)

/-! ## Records appended -/

/-- An append raises the count of the card it names with the records that name it (R68). -/
theorem append_books (s : State) (body : RecordBody) : BooksKept (s.append body) s := by
  have counts : s.countsAgree → (s.append body).countsAgree := append_countsAgree body
  have cards := append_cards s body
  cases named : body.card? with
  | none =>
    rw [named] at cards
    refine .of_map (g := id) (by rw [cards, List.map_id]) (fun _ _ => rfl) (fun law c hc => law c hc) counts
  | some n =>
    rw [named] at cards
    refine .of_map cards (fun c _ => ?_) (fun law c hc => ?_) counts <;> split
    · rfl
    · rfl
    · exact law c hc
    · exact law c hc

theorem appendIfRoom_books (s : State) (body : RecordBody) : BooksKept (s.appendIfRoom body) s := by
  rcases appendIfRoom_cases s body with e | e <;> rw [e]
  · exact .refl s
  · exact append_books s body

theorem appendReserved_books (s : State) (size : Nat) (body : RecordBody) : BooksKept (s.appendReserved size body) s :=
  (append_books ..).trans (.of_parts rfl rfl)

/-! ## The ends of releases and holds -/

theorem outcome_books (s : State) (p : RiderPort) (kind : OutcomeKind) (card : Nat) (d : DockNo) :
    BooksKept (s.outcome p kind card d) s := .of_parts (outcome_cards ..) (by rw [outcome_journal])

theorem loseHold_books (s : State) (d : DockNo) (h : HoldRecord) (cause : LossCause) : BooksKept (s.loseHold d h cause) s :=
  (outcome_books ..).trans (clearHoldDock_books ..)

theorem expireHold_books (s : State) (d : DockNo) (b : DockedBike) (h : HoldRecord) : BooksKept (s.expireHold d b h) s :=
  (outcome_books ..).trans ((clearHoldDock_books ..).trans (.of_parts rfl rfl))

theorem endLapsed_books (s : State) (d : DockNo) (r : ReleaseRecord) (reason : LapseReason) :
    BooksKept (s.endLapsed d r reason) s :=
  (outcome_books ..).trans ((clearInFlight_books ..).trans (.of_parts rfl rfl))

theorem lapseRelease_books (s : State) (d : DockNo) (b : DockedBike) (r : ReleaseRecord) (reason : LapseReason) :
    BooksKept (s.lapseRelease d b r reason) s :=
  (endLapsed_books ..).trans (.of_parts (by simp) (by simp))

theorem completeRelease_books (s : State) (d : DockNo) (b : DockedBike) (r : ReleaseRecord) :
    BooksKept (s.completeRelease d b r) s :=
  (outcome_books ..).trans ((clearInFlight_books ..).trans ((appendReserved_books ..).trans (.of_parts rfl rfl)))

theorem tickDock_books (s : State) (d : DockNo) : BooksKept (s.tickDock d) s := by
  unfold State.tickDock
  split
  · split
    · exact expireHold_books ..
    · exact .of_parts rfl rfl
  · split
    · exact lapseRelease_books ..
    · exact .of_parts rfl rfl
  all_goals exact .refl s

theorem quarantineDock_books (bike : Nat) (s : State) (d : DockNo) : BooksKept (s.quarantineDock bike d) s := by
  unfold State.quarantineDock
  split
  · split
    · exact (loseHold_books ..).trans (.of_parts rfl rfl)
    · exact .refl s
  · split
    · exact lapseRelease_books ..
    · exact .refl s
  all_goals exact .refl s

/-! ## Reports -/

theorem takeReport_books (s : State) (r : Report) (p : Place) : BooksKept (s.takeReport r p) s := by
  unfold State.takeReport
  refine (appendIfRoom_books ..).trans ?_
  split
  · exact (foldl_books (quarantineDock_books r.bike) ..).trans (.of_parts rfl rfl)
  · exact .of_parts rfl rfl

theorem internalReport_books (s : State) (bike : Nat) (d : DockNo) (category : Category) :
    BooksKept (s.internalReport bike d category) s := by
  unfold State.internalReport
  dsimp only
  split
  · exact takeReport_books ..
  · exact appendIfRoom_books ..

theorem recordMissing_books (s : State) (bike : Nat) (d : DockNo) : BooksKept (s.recordMissing bike d) s :=
  appendIfRoom_books ..

/-! ## Van jobs -/

theorem endJob_books (s : State) (slot : SlotNo) (j : JobRecord) : BooksKept (s.endJob slot j) s :=
  have stored : BooksKept (s.setJob slot (some { j with state := .ended, window := none })) s := .of_parts rfl rfl
  ((appendReserved_books _ _ (.jobEnd j.endRecord)).trans stored).written rfl rfl

theorem settleJob_books (s : State) (slot : SlotNo) (j : JobRecord) : BooksKept (s.settleJob slot j) s := by
  rcases settleJob_cases s slot j with ⟨_, e⟩ | ⟨_, e⟩ <;> rw [e]
  · exact endJob_books ..
  · exact .of_parts rfl rfl

/-- Work on a numbered job keeps the laws where the work itself does. -/
theorem withJob_books (s : State) (number : Nat) {work : SlotNo → JobRecord → State → State}
    (h : ∀ slot j, BooksKept (work slot j s) s) : BooksKept (s.withJob number work) s := by
  unfold State.withJob
  split
  · exact .refl s
  · split
    · exact h ..
    · exact .refl s

theorem countRemoval_books (s : State) (number : Nat) (d : DockNo) (b : DockedBike) :
    BooksKept (s.countRemoval number d b) s := withJob_books _ _ (fun _ _ => settleJob_books ..)

theorem faultItem_books (s : State) (number : Nat) (d : DockNo) : BooksKept (s.faultItem number d) s :=
  withJob_books _ _ (fun _ _ => settleJob_books ..)

theorem countDelivery_books (s : State) (number : Nat) (d : DockNo) (bike : Nat) :
    BooksKept (s.countDelivery number d bike) s := withJob_books _ _ (fun _ _ => settleJob_books ..)

theorem remark_books (s : State) (number : Nat) (d : DockNo) : BooksKept (s.remark number d) s := by
  refine withJob_books _ _ (fun slot j => ?_)
  dsimp only
  split
  · exact (settleJob_books ..).trans (.of_parts rfl rfl)
  · exact settleJob_books ..

theorem returnDock_books (s : State) (d : DockNo) : BooksKept (s.returnDock d) s := by
  unfold State.returnDock
  split <;> exact .of_parts rfl rfl

theorem countStray_books (s : State) (d : DockNo) (bike : Nat) : BooksKept (s.countStray d bike) s := by
  unfold State.countStray
  split
  · exact .refl s
  · split
    · exact .refl s
    · dsimp only
      split
      · exact (settleJob_books ..).trans (returnDock_books ..)
      · exact settleJob_books ..

theorem cutJob_books (s : State) (slot : SlotNo) (j : JobRecord) (add : EndConditions → EndConditions) :
    BooksKept (s.cutJob slot j add) s := by
  have returned : BooksKept (j.openDocks.foldl State.returnDock s) s := foldl_books returnDock_books ..
  unfold State.cutJob
  refine (endJob_books ..).trans ?_
  split
  · exact returned.written (giveUp_cards ..) (by rw [giveUp_journal])
  · exact returned

theorem tickJob_books (s : State) (slot : SlotNo) : BooksKept (s.tickJob slot) s := by
  unfold State.tickJob
  split
  · exact .refl s
  · split
    · exact .refl s
    · split
      · exact cutJob_books ..
      · exact .of_parts rfl rfl

theorem markDock_books (number : Nat) (s : State) (d : DockNo) : BooksKept (s.markDock number d) s := by
  unfold State.markDock
  split <;> exact .of_parts rfl rfl

theorem startWalk_books (s : State) (slot : SlotNo) (req : StartReq) (j : JobRecord) :
    BooksKept (s.startWalk slot req j) s := by
  have marked : ∀ (number : Nat) (l : List DockNo), BooksKept (l.foldl (State.markDock number) s) s :=
    fun number l => foldl_books (markDock_books number) l s
  unfold State.startWalk
  dsimp only
  split
  · exact endJob_books ..
  all_goals
    split
    · exact endJob_books ..
    · split <;> exact (marked _ _).written rfl rfl

theorem startJob_books (s : State) (slot : SlotNo) (origin : CrewPort) (req : StartReq) :
    BooksKept (s.startJob slot origin req) s := (startWalk_books ..).trans (.of_parts rfl rfl)

theorem resetJob_books (s : State) (slot : SlotNo) : BooksKept (s.resetJob slot) s := by
  unfold State.resetJob
  split
  · exact .refl s
  · split
    · exact appendReserved_books ..
    · exact .refl s

/-! ## Docks -/

theorem dockFault_books (s : State) (kind : DockFaultKind) (d : DockNo) : BooksKept (s.dockFault kind d) s := by
  unfold State.dockFault
  dsimp only
  split
  case h_4 => exact (loseHold_books ..).trans (.of_parts rfl rfl)
  case h_5 => exact (endLapsed_books ..).trans (.of_parts rfl rfl)
  case h_6 => exact (faultItem_books ..).trans (.of_parts rfl rfl)
  case h_7 => exact (faultItem_books ..).trans (.of_parts rfl rfl)
  all_goals exact .of_parts rfl rfl

theorem forceRemoval_books (s : State) (d : DockNo) (b : DockedBike) (hold : Option HoldRecord) :
    BooksKept (s.forceRemoval d b hold) s := by
  unfold State.forceRemoval
  refine (internalReport_books ..).trans ?_
  cases hold with
  | none => exact .of_parts rfl rfl
  | some hold => exact (loseHold_books ..).trans (.of_parts rfl rfl)

theorem censusItem_books (s : State) (i : CensusItem) : BooksKept (s.censusItem i) s := by
  have missing : ∀ (found : Option DockedBike) (u : State),
      BooksKept (match found with
        | some b => u.recordMissing b.bike i.dock
        | none => u) u := by
    intro found u
    cases found with
    | none => exact .refl u
    | some b => exact recordMissing_books ..
  have written : BooksKept (s.putDock i.dock ⟨s.censusState i, true⟩) s := .of_parts rfl rfl
  unfold State.censusItem
  dsimp only
  split
  · exact .refl s
  · split
    · split
      · exact (loseHold_books ..).trans ((missing _ _).trans written)
      all_goals exact (missing _ _).trans written
    · exact written

theorem markFetched_books (s : State) (d : DockNo) : BooksKept (s.markFetched d) s := by
  unfold State.markFetched
  split <;> exact .of_parts rfl rfl

theorem fetch_books (s : State) (c : Command) : BooksKept (s.fetch c) s := by
  cases c with
  | unlock d token => exact (markFetched_books ..).trans (.of_parts rfl rfl)
  | batchUnlock number docks => exact (withJob_books _ _ (fun _ _ => .of_parts rfl rfl)).trans (.of_parts rfl rfl)
  | relock docks => exact .of_parts rfl rfl
  | readToken d => exact .of_parts rfl rfl

/-! ## Returns -/

/-- A fare is taken from the balance down to its floor at most (R61). -/
theorem applyCharge_balanceSound (plan : Plan) (f : FareFigures) (day : Int) (now : Nat) {c : CardEntry}
    (h : BalanceSound c.balance) : BalanceSound (applyCharge plan f day now c).balance := by
  obtain ⟨-, ceiling⟩ := h
  show BalanceSound (max Config.balanceFloor (c.balance - (f.charge : Int)))
  have order : Config.balanceFloor ≤ Config.balanceCeiling := by decide
  exact ⟨le_max_left .., max_le order (by omega)⟩

theorem chargeRide_books (s : State) (t : Token) (bike : Nat) (d : DockNo) (returnTime : Nat) (plan : Plan)
    (substituted : Bool) : BooksKept (s.chargeRide t bike d returnTime plan substituted).station s := by
  unfold State.chargeRide
  dsimp only
  split <;> dsimp only
  · refine (append_books ..).trans (.trans (modifyCard_books (fun _ h => h) (fun law c hc _ => ?_) (fun _ _ _ _ => rfl))
      (.of_parts rfl rfl))
    exact applyCharge_balanceSound _ _ _ _ (law c hc)
  · exact (append_books ..).trans (.of_parts rfl rfl)

theorem settle_books (s : State) (t : Token) (bike : Nat) (d : DockNo) (returnTime : Nat) :
    BooksKept (s.settle t bike d returnTime).station s := by
  unfold State.settle
  dsimp only
  split
  · exact .refl s
  · split
    · split
      · exact chargeRide_books ..
      · exact .of_parts rfl rfl
    · exact .of_parts rfl rfl

theorem settleReturn_books (s : State) (t : Token) (d : DockNo) (bike : Nat) :
    BooksKept (s.settleReturn t d bike).station s := by
  have settled : BooksKept ((s.dockBike d bike).settle t bike d s.time.clock).station s :=
    (settle_books ..).trans (.of_parts rfl rfl)
  unfold State.settleReturn
  dsimp only
  split
  · exact settled.written rfl rfl
  · exact settled
  · exact settled

/-! ## The end of an event -/

theorem closeEvent_records (u s : State) : (u.closeEvent s).journal.records = u.journal.records := by
  rw [closeEvent_journal]

theorem closeEvent_books (u s : State) : BooksKept (u.closeEvent s) u :=
  .of_parts (closeEvent_cards ..) (closeEvent_records ..)

theorem loseLink_books (s : State) : BooksKept s.loseLink s := by
  unfold State.loseLink
  split <;> exact .of_parts rfl rfl

theorem holderWork_books (s : State) (holder : TickHolder) : BooksKept (s.holderWork holder) s := by
  cases holder with
  | docks => exact foldl_books tickDock_books ..
  | vans => exact foldl_books tickJob_books ..
  | fares =>
    show BooksKept s.switchTariff s
    unfold State.switchTariff
    split <;> exact .of_parts rfl rfl
  | stale =>
    show BooksKept s.tickStale s
    unfold State.tickStale
    dsimp only
    split
    · exact (loseLink_books ..).trans (.of_parts rfl rfl)
    · exact .of_parts rfl rfl

theorem takeTick_books (s : State) (holder : TickHolder) : BooksKept (s.takeTick holder) s := by
  unfold State.takeTick
  split
  · exact (closeEvent_books ..).trans ((holderWork_books ..).trans (.of_parts rfl rfl))
  · exact .refl s

theorem takeTicks_books (l : List TickHolder) (s : State) : BooksKept (l.foldl State.takeTick s) s :=
  foldl_books takeTick_books l s

/-- A request's event ends with the cards and the records its owner left. -/
theorem finishFrame_books (p : Port) (first : Byte) (bytes : List Byte) (restarts : Bool) (x : Handled) (s : State) :
    BooksKept (finishFrame p first bytes restarts x s) x.station := by
  unfold finishFrame
  dsimp only
  split
  · exact (closeEvent_books ..).trans (.of_parts (by simp) (by simp))
  · exact .of_parts (by simp) (by simp)

theorem takeFrame_books {p : Port} {first : Byte} {bytes : List Byte} {restarts : Bool} {judge : State → Handled} {s : State}
    (h : ∀ u, BooksKept (judge u).station u) : BooksKept (takeFrame p first bytes restarts judge s) s := by
  unfold takeFrame
  split
  · exact .of_parts rfl rfl
  · dsimp only
    split
    · exact .of_parts rfl rfl
    · exact (finishFrame_books ..).trans ((h _).trans (.of_parts rfl rfl))

/-- A judged request keeps the laws where the accepted work does: a refusal writes nothing (R176). -/
theorem orRefuse_books {α : Type} {judged : Except RefusalReason α} {u : State} {work : α → Handled}
    (h : ∀ x, judged = .ok x → BooksKept (work x).station u) : BooksKept (orRefuse judged u work).station u := by
  unfold orRefuse
  split
  · exact h _ rfl
  · exact .refl u

/-- A request that its owner is handed was read off the frame's body (R167). -/
theorem intake_reads {α : Type} {kind : ReqKind} {p : Port} {bytes : List Byte} {read : List Byte → Except RefusalReason α}
    {configured : Bool} {req : α} (h : intake kind p bytes read configured = .ok req) : ∃ body, read body = .ok req := by
  unfold intake at h
  split at h
  · cases h
  · next body _ =>
    split at h
    · split at h
      · cases h
      · next req' read' =>
        split at h
        · cases h
          exact ⟨body, read'⟩
        · cases h
    · cases h

/-- A request keeps the laws where its owner does with what was read. -/
theorem serve_books_of_read {α : Type} {kind : ReqKind} {p : Port} {bytes : List Byte}
    {read : List Byte → Except RefusalReason α} {owner : α → State → Handled} {s : State}
    (h : ∀ body req, read body = .ok req → ∀ u : State, BooksKept (owner req u).station u) :
    BooksKept (serve kind p bytes read owner s) s := by
  refine takeFrame_books fun u => orRefuse_books fun req taken => ?_
  obtain ⟨body, hread⟩ := intake_reads taken
  exact h body req hread u

theorem serve_books {α : Type} {kind : ReqKind} {p : Port} {bytes : List Byte} {read : List Byte → Except RefusalReason α}
    {owner : α → State → Handled} {s : State} (h : ∀ req (u : State), BooksKept (owner req u).station u) :
    BooksKept (serve kind p bytes read owner s) s := serve_books_of_read fun _ req _ u => h req u

end Sys2Proof.Machine.CardLaws
end

section
/-! PROOFS. What each command makes of the card table and of the records that name its cards, and that every step keeps the
order and the size of the table, Law 6 and Law 4 (R65, R68, R72). -/

namespace Sys2Proof.Machine.CardLaws

open Sys2Proof.Machine.Laws JournalLaws

/-! ## Amounts in range (R174) -/

theorem inRange_eq_ok {α : Type} {field : Option α} {x : α} : inRange field = .ok x ↔ field = some x := by
  cases field <;> simp [inRange]

theorem betweenInt_eq_some {lo hi n m : Int} : betweenInt lo hi n = some m ↔ lo ≤ n ∧ n ≤ hi ∧ n = m := by
  simp [betweenInt, and_assoc]

/-- A body read was measured and then judged. -/
theorem bind_eq_ok {α β : Type} {x : Except RefusalReason α} {f : α → Except RefusalReason β} {b : β}
    (h : (x >>= f) = .ok b) : ∃ a, x = .ok a ∧ f a = .ok b := by
  cases x with
  | error _ => cases h
  | ok a => exact ⟨a, rfl, h⟩

/-- The amount of a TOPUP is positive (R81). -/
theorem readTopup_amount {body : List Byte} {req : TopupReq} (h : readTopup body = .ok req) : 0 ≤ req.amount := by
  obtain ⟨⟨card, amount⟩, -, judged⟩ := bind_eq_ok h
  simp only [inRange_eq_ok, Option.bind_eq_bind, Option.bind_eq_some_iff, Option.pure_def, Option.some.injEq] at judged
  obtain ⟨_, -, a, range, rfl⟩ := judged
  obtain ⟨low, -, rfl⟩ := betweenInt_eq_some.1 range
  exact le_trans (by decide) low

/-- The balance of a CARD_LOAD lies in its range (R74). -/
theorem readLoad_balance {body : List Byte} {req : LoadReq} (h : readLoad body = .ok req) : BalanceSound req.balance := by
  obtain ⟨⟨card, balance, charged, day, state, kind, expiry, tariff, discount, through⟩, -, judged⟩ := bind_eq_ok h
  simp only [inRange_eq_ok, Option.bind_eq_bind, Option.bind_eq_some_iff, Option.pure_def, Option.some.injEq] at judged
  obtain ⟨_, -, b, range, _, -, _, -, _, -, _, -, _, -, _, -, rfl⟩ := judged
  obtain ⟨low, high, rfl⟩ := betweenInt_eq_some.1 range
  exact ⟨low, high⟩

/-! ## The owners that make, remove or write entries -/

/-- A release is granted on the cards of the table, or on those with a provisional entry made for its card (R28, R73). -/
theorem judgeRelease_cards {s : State} {p : Port} {req : RideReq} {g : Grant} (h : s.judgeRelease p req = .ok g) :
    g.cards = s.cards ∨ ∃ room, s.card req.card = none ∧ roomForCard s.cards = some room
      ∧ g.cards = insertCard (s.provisionalEntry req.card) room.1 := by
  unfold State.judgeRelease at h
  cases found : s.card req.card with
  | some c =>
    simp only [found] at h
    split_ifs at h
    split at h
    · cases h
      exact Or.inl rfl
    · cases h
  | none =>
    simp only [found] at h
    split_ifs at h
    split at h
    · cases h
    · split at h
      · next room left =>
        cases h
        exact Or.inr ⟨room, rfl, left, rfl⟩
      · cases h

theorem pushCommand_books (s : State) (c : Command) : BooksKept (s.pushCommand c) s := .of_parts rfl rfl

theorem zero_balanceSound : BalanceSound 0 := ⟨by decide, by decide⟩

theorem grantRelease_books {s : State} {p : Port} {req : RideReq} {g : Grant} (origin : RiderPort)
    (h : s.judgeRelease p req = .ok g) : BooksKept (s.grantRelease origin g) s := by
  have made : BooksKept { s with cards := g.cards } s := by
    rcases judgeRelease_cards h with cards | ⟨room, absent, found, cards⟩ <;> rw [cards]
    · exact .refl s
    · exact insertCard_books absent found zero_balanceSound rfl
  unfold State.grantRelease
  dsimp only
  refine (pushCommand_books ..).trans (.trans (modifyCard_books_of_same (fun _ => rfl) (fun _ => rfl) (fun _ => rfl)) ?_)
  exact made.written rfl rfl

theorem ownRelease_books (p : Port) (req : RideReq) (u : State) : BooksKept (ownRelease p req u).station u :=
  orRefuse_books fun _ h => grantRelease_books _ h

theorem ownHold_books (p : Port) (req : RideReq) (u : State) : BooksKept (ownHold p req u).station u :=
  orRefuse_books fun d _ => .trans (modifyCard_books_of_same (fun _ => rfl) (fun _ => rfl) (fun _ => rfl))
    (.of_parts (t := u.putDockState d _) rfl rfl)

theorem ownHoldCancel_books (p : Port) (card : Nat) (u : State) : BooksKept (ownHoldCancel p card u).station u := by
  unfold ownHoldCancel
  split
  · exact .refl u
  · split
    · exact .refl u
    · split
      · next d _ _ b _ _ =>
        split
        · exact (clearHoldDock_books (u.putDockState d (.docked b)) card).trans (.of_parts rfl rfl)
        · exact .refl u
      all_goals exact .refl u

theorem ownTopup_books {req : TopupReq} (positive : 0 ≤ req.amount) (u : State) : BooksKept (ownTopup req u).station u := by
  unfold ownTopup
  split
  · exact .refl u
  · split
    · exact .refl u
    · next c found =>
      split_ifs with _ _ _ above
      case neg =>
        refine .trans (appendIfRoom_books _ _) (modifyCard_books (fun _ h => h) (fun law x _ _ => ?_) (fun _ _ _ _ => rfl))
        obtain ⟨low, -⟩ := law c (List.mem_of_find?_eq_some found)
        exact ⟨show Config.balanceFloor ≤ c.balance + req.amount by omega, not_lt.1 above⟩
      all_goals exact .refl u

/-- A merged balance lies in range: each step is clamped, and with none it is the office's (R72, R76). -/
theorem mergeBalance_sound {start : Int} (h : BalanceSound start) (records : List Record) :
    BalanceSound (mergeBalance start records) := by
  have clamped : ∀ n, BalanceSound (clampBalance n) := fun n =>
    ⟨le_max_left .., max_le (by decide) (min_le_left ..)⟩
  induction records generalizing start with
  | nil => exact h
  | cons r rs ih => exact ih (clamped _)

theorem ownCardLoad_books {req : LoadReq} (balance : BalanceSound req.balance) (u : State) :
    BooksKept (ownCardLoad req u).station u := by
  have merged : BalanceSound (mergeBalance req.balance (u.replayed req.card req.through)) := mergeBalance_sound balance _
  unfold ownCardLoad
  split_ifs
  · exact .refl u
  · exact .refl u
  · split
    · next old found =>
      refine modifyCard_books (fun _ _ => rfl) (fun _ _ _ _ => merged) (fun law c hc number => ?_)
      show old.refCount = c.refCount
      rw [law c hc, law old (List.mem_of_find?_eq_some found), findCard_number found, number]
    · next absent =>
      split
      · exact .refl u
      · next room found => exact insertCard_books (e := u.loadedEntry req none) absent found merged rfl

theorem ownCardDrop_books (card : Nat) (u : State) : BooksKept (ownCardDrop card u).station u := by
  unfold ownCardDrop
  split
  · exact .refl u
  · split
    · exact .refl u
    · exact .of_sublist List.filter_sublist rfl

/-- The records of a card are those a release of the journal frees and those it keeps (R144). -/
theorem namingCount_freed_kept (j : Journal) (through card : Nat) :
    namingCount card j.records = namingCount card (j.freed through) + namingCount card (j.kept through) := by
  unfold namingCount Journal.freed Journal.kept
  rw [List.countP_eq_countP_filter_add j.records _ (fun r => decide (r.seq ≤ through))]
  congr 2
  exact List.filter_congr fun r _ => by rw [← decide_not, decide_eq_decide, not_le]

theorem release_books (s : State) (through : Nat) : BooksKept (s.release through) s := by
  refine .of_map (g := fun c => { c with refCount := c.refCount - namingCount c.number (s.journal.freed through) }) rfl
    (fun _ _ => rfl) (fun law c hc => law c hc) (fun law c hc => ?_)
  obtain ⟨x, hx, rfl⟩ := List.mem_map.1 hc
  show x.refCount - namingCount x.number (s.journal.freed through) = namingCount x.number (s.journal.kept through)
  rw [law x hx, namingCount_freed_kept s.journal through x.number, Nat.add_sub_cancel_left]

theorem ownJournalRelease_books (through : Nat) (u : State) : BooksKept (ownJournalRelease through u).station u := by
  unfold ownJournalRelease
  split_ifs
  · exact .refl u
  · exact .refl u
  · exact release_books u through

/-! ## The owners that append records -/

theorem ownReportFault_books (p : Port) (req : ReportReq) (u : State) : BooksKept (ownReportFault p req u).station u := by
  unfold ownReportFault
  split
  · refine orRefuse_books fun bike _ => ?_
    split
    · exact .refl u
    · split
      · exact .refl u
      · exact takeReport_books ..
  · exact .refl u

theorem ownClearFault_books (p : Port) (bike : Nat) (u : State) : BooksKept (ownClearFault p bike u).station u := by
  unfold ownClearFault
  split
  · exact .refl u
  · exact (appendIfRoom_books { u with faults := eraseFault bike u.faults } _).trans (.of_parts rfl rfl)

theorem ownClockSet_books (new : Nat) (u : State) : BooksKept (ownClockSet new u).station u :=
  (appendIfRoom_books { u with time := { u.time with clock := new, clockValid := true } } _).trans (.of_parts rfl rfl)

theorem ownInserted_books (req : ReturnReq) (u : State) : BooksKept (ownInserted req u).station u := by
  have placed : BooksKept (u.dockBike req.dock req.bike) u := .of_parts rfl rfl
  unfold ownInserted
  dsimp only
  split
  case h_1 =>
    split
    · exact (countStray_books ..).trans placed
    · exact settleReturn_books ..
  case h_2 =>
    split
    · exact (countDelivery_books ..).trans placed
    · exact (remark_books ..).trans (settleReturn_books ..)
  case h_3 => exact dockFault_books ..
  all_goals exact .refl u

theorem ownRemoved_books (req : RemovedReq) (u : State) : BooksKept (ownRemoved req u).station u := by
  unfold ownRemoved
  dsimp only
  split
  case h_6 b _ => exact forceRemoval_books u req.dock b none
  case h_7 b hold _ => exact forceRemoval_books u req.dock b (some hold)
  case h_8 => exact completeRelease_books ..
  case h_9 number _ =>
    exact (countRemoval_books ((u.resolveDock (.job number) req.dock).putDockState req.dock .empty) ..).trans
      (.of_parts rfl rfl)
  all_goals exact .of_parts rfl rfl

theorem reportDockFault_books (kind : DockFaultKind) (d : DockNo) (u : State) :
    BooksKept (reportDockFault kind d u).station u := by
  unfold reportDockFault
  split
  · exact .refl u
  · exact dockFault_books ..

theorem ownCensus_books (req : CensusReq) (u : State) : BooksKept (ownCensus req u).station u := by
  unfold ownCensus
  split
  · exact foldl_books censusItem_books ..
  · exact .refl u

theorem ownTokenReport_books (req : ReturnReq) (u : State) : BooksKept (ownTokenReport req u).station u := by
  have settled : ∀ (t : Token) (bike time : Nat), BooksKept (u.endWait.settle t bike req.dock time).station u :=
    fun _ _ _ => (settle_books ..).trans (.of_parts rfl rfl)
  unfold ownTokenReport
  dsimp only
  split
  · split
    · exact .refl u
    · split
      · split
        · exact (settled _ _ _).written rfl rfl
        · exact settled ..
        · exact settled ..
      · exact (internalReport_books (u.endWait.clearToken req.dock) ..).trans (.of_parts rfl rfl)
  · exact .refl u

theorem ownStartJob_books (p : Port) (req : StartReq) (u : State) : BooksKept (ownStartJob p req u).station u := by
  refine orRefuse_books fun slot _ => ?_
  dsimp only
  split
  · exact startJob_books ..
  · exact .refl u

theorem ownAbortJob_books (p : Port) (number : Nat) (u : State) : BooksKept (ownAbortJob p number u).station u := by
  refine orRefuse_books fun x _ => ?_
  split
  · rw [RideLaws.accept_station]
    exact cutJob_books ..
  · exact .refl u

/-! ## The owners that write neither -/

theorem ownQuote_books (req : QuoteReq) (u : State) : BooksKept (ownQuote req u).station u := by
  unfold ownQuote
  split
  · split
    · exact .refl u
    · split <;> exact .refl u
  · exact .refl u

theorem ownCardStatus_books (query : Option Nat) (u : State) : BooksKept (ownCardStatus query u).station u := by
  unfold ownCardStatus
  split
  · split <;> exact .refl u
  · exact .refl u

theorem ownFaultStatus_books (query : FaultQuery) (u : State) : BooksKept (ownFaultStatus query u).station u := by
  unfold ownFaultStatus
  split
  · split <;> exact .refl u
  · exact .refl u

theorem ownDockRestore_books (d : DockNo) (u : State) : BooksKept (ownDockRestore d u).station u := by
  unfold ownDockRestore
  split <;> exact .of_parts rfl rfl

theorem ownDockStatus_books (query : Option DockNo) (u : State) : BooksKept (ownDockStatus query u).station u := by
  unfold ownDockStatus
  split <;> exact .refl u

theorem ownFetchCommand_books (x : Unit) (u : State) : BooksKept (ownFetchCommand x u).station u := by
  unfold ownFetchCommand
  split
  · exact .refl u
  · next c cs _ => exact (fetch_books { u with rail := { u.rail with queue := cs } } c).trans (.of_parts rfl rfl)

theorem ownJobStatus_books (p : Port) (number : Option Nat) (u : State) : BooksKept (ownJobStatus p number u).station u := by
  unfold ownJobStatus
  split
  · exact orRefuse_books fun _ _ => .refl u
  · exact .refl u

theorem ownRetireJob_books (p : Port) (number : Nat) (u : State) : BooksKept (ownRetireJob p number u).station u := by
  refine orRefuse_books fun x _ => ?_
  split <;> exact .of_parts rfl rfl

theorem ownConfigure_books (req : ConfigureReq) (u : State) : BooksKept (ownConfigure req u).station u := by
  unfold ownConfigure State.configure
  split
  · exact .refl u
  · dsimp only [accept]
    split_ifs <;> exact .of_parts rfl rfl

theorem ownSetMode_books (mode : StationMode) (u : State) : BooksKept (ownSetMode mode u).station u := by
  unfold ownSetMode
  split <;> exact .of_parts rfl rfl

theorem ownTariffStage_books (req : StagedSet) (u : State) : BooksKept (ownTariffStage req u).station u := by
  unfold ownTariffStage
  split <;> exact .of_parts rfl rfl

theorem ownJournalRead_books (req : ReadReq) (u : State) : BooksKept (ownJournalRead req u).station u := by
  unfold ownJournalRead
  split <;> exact .refl u

/-! ## Resets and the events outside requests -/

/-- An empty card table keeps every law (R84). -/
theorem BooksKept.of_noCards {t : State} (s : State) (h : t.cards = []) : BooksKept t s := by
  refine ⟨fun _ => ?_, fun _ c hc => ?_, fun _ c hc => ?_⟩
  · unfold State.cardsOrdered
    rw [h]
    exact ⟨List.Pairwise.nil, Nat.zero_le _⟩
  · rw [h] at hc
    exact absurd hc List.not_mem_nil
  · rw [h] at hc
    exact absurd hc List.not_mem_nil

/-- A warm reset clears the docks of every entry and keeps the rest (R84). -/
theorem warmRecords_books (s : State) : BooksKept s.warmRecords s := by
  let ended := allSlots.foldl State.resetJob (s.unreserve (s.countDocks (fun x => x.state.isUnlocking)))
  have kept : BooksKept ended s := (foldl_books resetJob_books ..).trans (.of_parts rfl rfl)
  refine .trans (.of_map (g := fun c => { c with inFlight := none, holdDock := none }) rfl (fun _ _ => rfl)
    (fun law c hc => law c hc) (countsAgree_congr rfl fun c hc => ?_)) kept
  obtain ⟨x, hx, rfl⟩ := List.mem_map.1 hc
  exact ⟨x, hx, rfl, rfl⟩

theorem countSecond_books (s : State) : BooksKept s.countSecond s := by
  unfold State.countSecond
  split_ifs <;> exact .of_parts rfl rfl

theorem dockExpiry_books (s : State) (d : DockNo) : BooksKept (s.dockExpiry d) s := by
  unfold State.dockExpiry
  split
  · exact takeTick_books ..
  · exact (closeEvent_books ..).trans (tickDock_books ..)

/-! ## Every command -/

/-- Where a command answers a next state, that state keeps the laws of the card table. -/
abbrev NextKeeps (s : State) : Host.Outcome State Fault Refusal → Prop := NextHas (fun t => BooksKept t s)

theorem execAnswerRead_books (p : Port) (clocked : Nat) (s : State) : NextKeeps s (execAnswerRead p clocked s) := by
  refine .ite (.next (.of_parts rfl rfl)) ?_
  split <;> exact .next (.of_parts rfl rfl)

theorem execTick_books (takers : List TickHolder) (s : State) : NextKeeps s (execTick takers s) := by
  refine .ite (.next (countSecond_books s)) (.next ?_)
  refine (takeTicks_books ..).trans ((closeEvent_books ..).trans ?_)
  exact ((countSecond_books _).trans (takeTicks_books ..)).written rfl rfl

theorem execVanWindowExpiry_books (slot : SlotNo) (s : State) : NextKeeps s (execVanWindowExpiry slot s) := by
  refine .ite (.next ?_) (.next (.refl s))
  split
  · exact takeTick_books ..
  · exact (closeEvent_books ..).trans (tickJob_books ..)

theorem execStaleTimerExpiry_books (s : State) : NextKeeps s (execStaleTimerExpiry s) := by
  refine .ite (.next ?_) (.next (.refl s))
  split
  · exact (closeEvent_books ..).trans (loseLink_books s)
  · exact takeTick_books ..

theorem execResetHold_books (cause : HoldCause) (underWay : List Port) (s : State) :
    NextKeeps s (execResetHold cause underWay s) :=
  .next (.of_parts (foldl_keeps State.spoil State.cards (fun _ _ => rfl) underWay _)
    (foldl_keeps State.spoil (fun u => u.journal.records) (fun _ _ => rfl) underWay _))

/-- Every command keeps the laws of the card table, by what its owner or its event makes of it. -/
theorem exec_books (i : Instr) (s : State) : NextKeeps s (exec i s) := by
  cases i with
  | release p bytes => exact .next (serve_books (ownRelease_books p))
  | hold p bytes => exact .next (serve_books (ownHold_books p))
  | holdCancel p bytes => exact .next (serve_books (ownHoldCancel_books p))
  | quote p bytes => exact .next (serve_books ownQuote_books)
  | topup p bytes => exact .next (serve_books_of_read fun _ _ h => ownTopup_books (readTopup_amount h))
  | cardStatus p bytes => exact .next (serve_books ownCardStatus_books)
  | reportFault p bytes => exact .next (serve_books (ownReportFault_books p))
  | clearFault p bytes => exact .next (serve_books (ownClearFault_books p))
  | dockRestore p bytes => exact .next (serve_books ownDockRestore_books)
  | faultStatus p bytes => exact .next (serve_books ownFaultStatus_books)
  | fetchCommand p bytes => exact .next (serve_books ownFetchCommand_books)
  | inserted p bytes => exact .next (serve_books ownInserted_books)
  | removed p bytes => exact .next (serve_books ownRemoved_books)
  | lockJam p bytes => exact .next (serve_books (reportDockFault_books .lockJam))
  | sensorFault p bytes =>
    exact .next (serve_books (fun (req : SensorReq) => reportDockFault_books req.fault req.dock))
  | census p bytes => exact .next (serve_books ownCensus_books)
  | tokenReport p bytes => exact .next (serve_books ownTokenReport_books)
  | startJob p bytes => exact .next (serve_books (ownStartJob_books p))
  | jobStatus p bytes => exact .next (serve_books (ownJobStatus_books p))
  | retireJob p bytes => exact .next (serve_books (ownRetireJob_books p))
  | abortJob p bytes => exact .next (serve_books (ownAbortJob_books p))
  | configure p bytes => exact .next (serve_books ownConfigure_books)
  | clockSet p bytes => exact .next (serve_books ownClockSet_books)
  | setMode p bytes => exact .next (serve_books ownSetMode_books)
  | cardLoad p bytes => exact .next (serve_books_of_read fun _ _ h => ownCardLoad_books (readLoad_balance h))
  | cardDrop p bytes => exact .next (serve_books ownCardDrop_books)
  | tariffStage p bytes => exact .next (serve_books ownTariffStage_books)
  | journalRead p bytes => exact .next (serve_books ownJournalRead_books)
  | journalRelease p bytes => exact .next (serve_books ownJournalRelease_books)
  | factoryClear p bytes => exact .next (serve_books (fun _ u => .of_noCards u rfl))
  | dockStatus p bytes => exact .next (serve_books ownDockStatus_books)
  | stationStatus p bytes => exact .next (serve_books (fun _ u => .refl u))
  | readNotices p bytes => exact .next (serve_books (fun _ _ => .of_parts rfl rfl))
  | setNoticeEnables p bytes => exact .next (serve_books (fun _ _ => .of_parts rfl rfl))
  | unknownRequest p kind bytes => exact .ite (.next (takeFrame_books fun u => .refl u)) (.refused _)
  | answerRead p clocked => exact execAnswerRead_books p clocked s
  | tick takers => exact execTick_books takers s
  | holdExpiry d => exact .ite (.next (dockExpiry_books s d)) (.next (.refl s))
  | unlockWindowExpiry d => exact .ite (.next (dockExpiry_books s d)) (.next (.refl s))
  | vanWindowExpiry slot => exact execVanWindowExpiry_books slot s
  | staleTimerExpiry => exact execStaleTimerExpiry_books s
  | tariffSwitch => exact .ite (.next (takeTick_books ..)) (.next (.refl s))
  | resettlementSweep => exact .ite (.next (.refl s)) (.next (.of_parts (sweep_cards s) (by simp)))
  | resetHold cause underWay => exact execResetHold_books cause underWay s
  | retentionLoss => exact .ite (.next (.of_parts rfl rfl)) (.next (.refl s))
  | warmReset => exact .ite (.next ((warmRecords_books s).written rfl rfl)) (.next (.refl s))
  | coldReset => exact .ite (.next (.of_noCards s rfl)) (.next (.refl s))
  | selectDuringHold p => exact .ite (.next (.of_parts rfl rfl)) (.next (.refl s))
  | spoiledTransferEnd p => exact .ite (.next (.of_parts rfl rfl)) (.next (.refl s))

theorem step_books {s t : State} (e : step s = .next t) : BooksKept t s := by
  unfold step at e
  split at e
  · cases e
    exact .refl s
  · next c cs _ => exact (exec_books c { s with pending := cs } t e).trans (.of_parts rfl rfl)

/-- Settles O54: each command keeps the order and the size of the table and every balance in range. -/
theorem stepKeepsCardTable : Obligations.StepKeepsCardTable := by
  unfold Obligations.StepKeepsCardTable
  intro s t order range e
  exact ⟨(step_books e).ordered order, (step_books e).balances range⟩

/-- Settles O55: each command changes a card's count with the held records that name the card. -/
theorem stepKeepsReferenceCounts : Obligations.StepKeepsReferenceCounts := by
  unfold Obligations.StepKeepsReferenceCounts
  intro s t law e
  exact (step_books e).counts law

end Sys2Proof.Machine.CardLaws
end

section
/-! PROOFS. CARD_DROP and TOPUP (R80, R81). -/

namespace Sys2Proof.Machine.CardLaws

open Sys2Proof.Machine.Laws RideLaws

/-! ## CARD_DROP -/

theorem pinned_iff (c : CardEntry) :
    c.pinned = true ↔ 0 < c.refCount ∨ c.inFlight.isSome = true ∨ c.holdDock.isSome = true := by
  simp [CardEntry.pinned, or_assoc]

theorem ownCardDrop_absent {s : State} {card : Nat} (h : s.card card = none) : ownCardDrop card s = refuse .notFound s := by
  rw [ownCardDrop, h]

theorem ownCardDrop_pinned {s : State} {card : Nat} {c : CardEntry} (h : s.card card = some c) (pinned : c.pinned = true) :
    ownCardDrop card s
      = { station := s
          reply := .refuse .cardBusy (some ⟨decide (0 < c.refCount), c.inFlight.isSome, c.holdDock.isSome⟩)
          acts := false } := by
  simp only [ownCardDrop, h, pinned, if_true]

theorem ownCardDrop_loose {s : State} {card : Nat} {c : CardEntry} (h : s.card card = some c) (loose : c.loose) :
    ownCardDrop card s = accept .nothing { s with cards := eraseCard card s.cards } := by
  have free : c.pinned = false := by simpa using (pinned_iff_loose c).2 loose
  simp only [ownCardDrop, h, free, Bool.false_eq_true, if_false]

/-- Settles O30, by whether the card has an entry and whether it is pinned. -/
theorem cardDropRemovesUnpinned : Obligations.CardDropRemovesUnpinned := by
  unfold Obligations.CardDropRemovesUnpinned
  intro s p bytes card h
  refine ⟨fun absent => ⟨_, rfl, serve_refused h (ownCardDrop_absent absent)⟩, fun c hc => ⟨fun pins => ?_, ?_⟩⟩
  · have own := ownCardDrop_pinned (s := s.endRequest p (bytes.length + 1)) hc ((pinned_iff c).2 pins)
    refine ⟨_, rfl, ?_⟩
    rw [serve_takes h, own]
    exact finish_refuse ..
  · intro count inFlight holdDock
    have own := ownCardDrop_loose (s := s.endRequest p (bytes.length + 1)) hc ⟨count, inFlight, holdDock⟩
    obtain ⟨answered, ends, kept, -⟩ := serve_accepted h rfl own (.of_ports rfl)
    have cards := endsAs_cards ends
    have found : ∀ n, findCard n (eraseCard card s.cards) = if n = card then none else s.card n :=
      fun n => findCard_eraseCard card n s.cards
    refine ⟨_, rfl, answered, kept, ?_, fun n other => ?_, ?_⟩
    · rw [endsAs_card ends]
      exact (found card).trans (if_pos rfl)
    · rw [endsAs_card ends]
      exact (found n).trans (if_neg other)
    · rw [cards]
      exact endsAs_congr ends rfl

/-! ## TOPUP -/

/-- The checks of R81 in their order. -/
def topupChecks (s : State) (req : TopupReq) : List (Bool × RefusalReason) :=
  let c := s.card req.card
  [(!s.time.clockValid, .clockUnset), (c.all (fun c => c.provisional), .unknownCard),
   (c.any (fun c => decide (c.state = .barred ∨ c.state = .lost)), .cardBlocked),
   (decide (s.journal.mode = .reserve), .journalReserve),
   (c.any (fun c => decide (1000000 < c.balance + req.amount)), .outOfRange)]

theorem ownTopup_refused {s : State} {req : TopupReq} {reason : RefusalReason}
    (h : firstFailing (topupChecks s req) = some reason) : ownTopup req s = refuse reason s := by
  unfold topupChecks at h
  unfold ownTopup
  cases found : s.card req.card with
  | none =>
    simp only [found, Option.all_none, Option.any_none, firstFailing, if_true] at h ⊢
    split_ifs at h ⊢ <;> cases h <;> rfl
  | some c =>
    simp only [found, Option.all_some, Option.any_some, firstFailing, decide_eq_true_eq] at h ⊢
    rw [show Config.balanceCeiling = 1000000 from rfl]
    split_ifs at h ⊢ <;> cases h <;> rfl

/-- The entry a top-up leaves before its record is counted (R81). -/
def toppedEntry (s : State) (balance : Int) (state : CardState) (c : CardEntry) : CardEntry :=
  { c with balance := balance, state := state, lastUse := s.stamp }

/-- Outside RESERVE the journal has a slot for a TOPUP record (R81, R136). -/
theorem free_of_notReserve {j : Journal} (right : j.modeRight) (h : j.mode ≠ .reserve) : 129 ≤ j.free := by
  unfold Journal.modeRight modeOfFree at right
  by_contra few
  rw [if_neg (by omega), if_neg few] at right
  exact h right

/-- An accepted top-up credits the entry and appends its record (R81). -/
theorem ownTopup_accepted {s : State} {req : TopupReq} {c : CardEntry} (clock : s.time.clockValid = true)
    (found : s.card req.card = some c) (known : c.provisional = false) (permitted : c.state = .active ∨ c.state = .debt)
    (mode : s.journal.mode ≠ .reserve) (right : s.journal.modeRight) (below : c.balance + req.amount ≤ 1000000) :
    let balance := c.balance + req.amount
    let state := toppedState c balance
    ownTopup req s
      = accept (.toppedUp balance state)
          ((s.modifyCard req.card (toppedEntry s balance state)).append (.topup req.card req.amount balance state)) := by
  intro balance state
  have unblocked : ¬ (c.state = .barred ∨ c.state = .lost) := by rcases permitted with e | e <;> rw [e] <;> decide
  have under : ¬ Config.balanceCeiling < c.balance + req.amount := not_lt.2 below
  have free := free_of_notReserve right mode
  have room : (RecordBody.topup req.card req.amount balance state).slots
      ≤ (s.modifyCard req.card (toppedEntry s balance state)).freeSlots := le_trans (show 1 ≤ 129 by decide) free
  unfold ownTopup
  rw [found]
  simp only [clock, known, unblocked, mode, under, Bool.not_true, Bool.false_eq_true, if_false]
  rw [← appendIfRoom_of_room room]
  rfl

theorem updateCard_updateCard {n : Nat} {f g : CardEntry → CardEntry} (number : ∀ c, (f c).number = c.number)
    (cards : List CardEntry) : updateCard n g (updateCard n f cards) = updateCard n (g ∘ f) cards := by
  unfold updateCard
  rw [List.map_map]
  refine List.map_congr_left fun c _ => ?_
  by_cases h : c.number = n <;> simp [h, number]

/-- A card's entry written and then counted with a record that names it is one writing of both. -/
theorem append_modifyCard {s : State} {n : Nat} {f : CardEntry → CardEntry} {body : RecordBody} (named : body.card? = some n)
    (number : ∀ c, (f c).number = c.number) :
    (s.modifyCard n f).append body
      = { (s.withRecord body).withCard n (counted ∘ f) with ports := ((s.modifyCard n f).append body).ports } := by
  have cards : ((s.modifyCard n f).append body).cards = updateCard n (counted ∘ f) s.cards := by
    rw [append_cards, named]
    exact updateCard_updateCard number s.cards
  exact state_eq rfl rfl rfl rfl cards rfl rfl rfl rfl rfl

/-- Settles O28: the checks in their order, and the entry credited with its record. -/
theorem topupJudgedAndCredited : Obligations.TopupJudgedAndCredited := by
  unfold Obligations.TopupJudgedAndCredited
  intro s p bytes req h
  constructor
  · intro reason failing
    exact ⟨_, rfl, serve_refused h (ownTopup_refused (s := s.endRequest p _) failing)⟩
  · intro c clock found known permitted mode right below balance state
    let u := s.endRequest p (bytes.length + 1)
    let body : RecordBody := .topup req.card req.amount balance state
    have own : ownTopup req u = accept (.toppedUp balance state)
        ((u.modifyCard req.card (toppedEntry u balance state)).append body) :=
      ownTopup_accepted clock found known permitted mode right below
    have grows : PortsGrow ((u.modifyCard req.card (toppedEntry u balance state)).append body) u :=
      (append_grows ..).trans (.of_ports rfl)
    obtain ⟨answered, ends, kept, notified⟩ := serve_accepted h rfl own grows.follow
    refine ⟨_, rfl, answered, kept, notified _ _ (append_notified ..), ?_⟩
    rw [append_modifyCard (n := req.card) (f := toppedEntry u balance state) rfl (fun _ => rfl)] at ends
    rw [← stamp_of_valid clock]
    exact endsAs_congr ends rfl

end Sys2Proof.Machine.CardLaws
end

section
/-! PROOFS. CARD_LOAD: its checks, the merge of a load as the statement spells it, and the entry it replaces or makes (R70, R74
to R78). -/

namespace Sys2Proof.Machine.CardLaws

open Sys2Proof.Machine.Laws RideLaws

/-! ## The checks of a load -/

/-- The checks of R74 and R75 in their order. -/
def loadChecks (s : State) (req : LoadReq) : List (Bool × RefusalReason) :=
  [(decide (req.through < s.journal.marker), .staleLoad), (decide (s.journal.lastSeq < req.through), .futureLoad),
   ((s.card req.card).isNone && decide (1024 ≤ s.cards.length)
      && s.cards.all (fun c => decide (0 < c.refCount) || c.inFlight.isSome || c.holdDock.isSome), .tableFull)]

/-- The last check fails where the card has no entry and none can be made (R70). -/
theorem placeless_iff (s : State) (card : Nat) :
    ((s.card card).isNone && decide (1024 ≤ s.cards.length)
        && s.cards.all (fun c => decide (0 < c.refCount) || c.inFlight.isSome || c.holdDock.isSome)) = true
      ↔ s.card card = none ∧ roomForCard s.cards = none := by
  have pins : (∀ c ∈ s.cards, c.pinned = true) ↔ ∀ c ∈ s.cards, ¬ c.loose :=
    forall₂_congr fun c _ => by rw [← pinned_iff_loose, Bool.not_eq_true', Bool.not_eq_false]
  rw [roomForCard_eq_none, State.cardsPinned, ← pins, Bool.and_eq_true, Bool.and_eq_true, Option.isNone_iff_eq_none,
    decide_eq_true_eq, List.all_eq_true, and_assoc]
  rfl

theorem ownCardLoad_refused {s : State} {req : LoadReq} {reason : RefusalReason}
    (h : firstFailing (loadChecks s req) = some reason) : ownCardLoad req s = refuse reason s := by
  simp only [loadChecks, firstFailing, placeless_iff, decide_eq_true_eq] at h
  unfold ownCardLoad
  split_ifs at h ⊢ with stale future placeless
  · cases h
    rfl
  · cases h
    rfl
  · cases h
    simp only [placeless.1, placeless.2]

theorem ownCardLoad_replaces {s : State} {req : LoadReq} {old e : CardEntry} (above : s.journal.marker ≤ req.through)
    (held : req.through ≤ s.journal.lastSeq) (found : s.card req.card = some old)
    (loaded : s.loadedEntry req (some old) = e) :
    ownCardLoad req s
      = accept (.cardLoaded (s.loadView req e false none)) (s.withCard req.card (fun _ => e)) := by
  unfold ownCardLoad
  rw [if_neg (not_lt.2 above), if_neg (not_lt.2 held), found, ← loaded]
  rfl

theorem ownCardLoad_creates {s : State} {req : LoadReq} {e : CardEntry} {left : List CardEntry} {evicted : Option Nat}
    (above : s.journal.marker ≤ req.through) (held : req.through ≤ s.journal.lastSeq) (absent : s.card req.card = none)
    (room : roomForCard s.cards = some (left, evicted)) (loaded : s.loadedEntry req none = e) :
    ownCardLoad req s
      = accept (.cardLoaded (s.loadView req e true evicted)) { s with cards := insertCard e left } := by
  unfold ownCardLoad
  rw [if_neg (not_lt.2 above), if_neg (not_lt.2 held), absent, room, ← loaded]

/-! ## The merge of a load -/

theorem money_eq_adds (r : Record) : r.body.money = r.adds := by
  unfold RecordBody.money Record.adds
  cases r.body <;> rfl

theorem chargedOn_eq_addsOn (r : Record) (day : Int) : r.body.chargedOn day = r.addsOn day := by
  unfold RecordBody.chargedOn Record.addsOn
  cases r.body <;> simp

theorem mergeBalance_spelled (start : Int) (records : List Record) :
    mergeBalance start records = records.foldl (fun running r => max (-100000) (min 1000000 (running + r.adds))) start := by
  simp only [← money_eq_adds]
  rfl

theorem mergeCharged_spelled (s : State) (req : LoadReq) (records : List Record) :
    s.mergeCharged req records
      = (if s.time.clockValid then
          min 1000000 ((if req.day = s.today then req.charged else 0) + (records.map (fun r => r.addsOn s.today)).sum)
        else req.charged,
        if s.time.clockValid then s.today else req.day) := by
  simp only [← chargedOn_eq_addsOn]
  unfold State.mergeCharged
  split <;> rfl

/-- The credit floor that a tariff index resolves to (R52, R78). -/
theorem resolve_floor (f : Fares) (i : Fin 8) :
    (f.resolve i).map (fun p => p.1.creditFloor)
      = f.plan0.map (fun p0 => ((f.active[i]).map (fun p => p.creditFloor)).getD p0.creditFloor) := by
  unfold Fares.resolve
  cases f.plan0 with
  | none => rfl
  | some p0 => cases f.active[i] <;> rfl

/-- The loaded state judged afresh against a merged balance (R78). -/
def judgedState (state : CardState) (floor : Nat) (balance : Int) : CardState :=
  match state with
  | .active => if balance < -(floor : Int) then .debt else .active
  | .debt => if 0 ≤ balance then .active else .debt
  | .barred => .barred
  | .lost => .lost

theorem mergeState_spelled (s : State) (req : LoadReq) (records : List Record) (balance : Int) :
    s.mergeState req records balance
      = match (s.fares.resolve req.tariff).map (fun p => p.1.creditFloor) with
        | none => req.state
        | some l => if ∃ r ∈ records, r.adds ≠ 0 then judgedState req.state l balance else req.state := by
  have added : records.any (fun r => r.body.money != 0) = true ↔ ∃ r ∈ records, r.adds ≠ 0 := by
    simp [money_eq_adds]
  unfold State.mergeState
  simp only [added]
  cases s.fares.resolve req.tariff with
  | none => simp
  | some p => rfl

/-! ## The entry evicted -/

/-- The card whose entry a new one evicts has an entry (R70). -/
theorem evicts_found {s : State} {n : Nat} (h : s.evicts (some n)) : s.card n ≠ none := by
  rcases h with ⟨-, none⟩ | ⟨-, c, hc, -, named, -⟩
  · cases none
  · intro absent
    exact findCard_eq_none.1 absent c hc (Option.some.inj named).symm

/-- What the card table reads back as once a new entry is made in the room found (R70). -/
theorem findCard_created {s : State} {e : CardEntry} {left : List CardEntry} {evicted : Option Nat}
    (absent : s.card e.number = none) (room : roomForCard s.cards = some (left, evicted)) (n : Nat) :
    findCard n (insertCard e left) = if e.number = n then some e else if evicted = some n then none else s.card n := by
  have rest : ∀ m, findCard m left = if evicted = some m then none else s.card m := fun m => by
    rw [(roomForCard_evicts room).2, findCard_left]
    rfl
  rw [findCard_insertCard e left (by rw [rest, absent, ite_self]), rest]

/-- Settles O29: the checks in their order, the merged figures, and the entry replaced or made. -/
theorem cardLoadMerges : Obligations.CardLoadMerges := by
  unfold Obligations.CardLoadMerges
  intro s p bytes req h
  constructor
  · intro reason failing
    exact ⟨_, rfl, serve_refused h (ownCardLoad_refused (s := s.endRequest p _) failing)⟩
  · intro above held replayed balance charged day floor state entry
    have money : mergeBalance req.balance replayed = balance := mergeBalance_spelled ..
    have today : s.mergeCharged req replayed = (charged, day) := mergeCharged_spelled ..
    have plan : (s.fares.resolve req.tariff).map (fun p => p.1.creditFloor) = floor := by
      unfold floor
      rw [resolve_floor, Fares.plan0]
      cases s.fares.active[(0 : Fin 8)] <;> cases s.fares.active[req.tariff] <;> rfl
    have judged : s.mergeState req replayed balance = state := by
      rw [mergeState_spelled, plan]
      rfl
    have loaded : ∀ old, s.loadedEntry req old
        = entry (s.loadedEntry req old).refCount (old.bind (fun c => c.inFlight)) (old.bind (fun c => c.holdDock)) :=
      fun old => by
        unfold State.loadedEntry
        dsimp only
        rw [show s.replayed req.card req.through = replayed from rfl, money, today, judged]
    let u := s.endRequest p (bytes.length + 1)
    constructor
    · intro old found
      have own : ownCardLoad req u
          = accept (.cardLoaded (s.loadView req (entry old.refCount old.inFlight old.holdDock) false none))
              (u.withCard req.card (fun _ => entry old.refCount old.inFlight old.holdDock)) :=
        ownCardLoad_replaces (s := u) above held found (loaded (some old))
      obtain ⟨answered, ends, kept, -⟩ := serve_accepted h rfl own (.of_ports rfl)
      exact ⟨_, rfl, answered, kept, endsAs_congr ends rfl⟩
    · intro evicted absent evicts refCount
      obtain ⟨left, room⟩ := evicts_roomForCard evicts
      have own : ownCardLoad req u
          = accept (.cardLoaded (s.loadView req (entry refCount none none) true evicted))
              { u with cards := insertCard (entry refCount none none) left } :=
        ownCardLoad_creates (s := u) above held absent room (loaded none)
      obtain ⟨answered, ends, kept, -⟩ := serve_accepted h rfl own (.of_ports rfl)
      have cards := endsAs_cards ends
      have found := fun n => (endsAs_card ends n).trans (findCard_created (e := entry refCount none none) absent room n)
      refine ⟨_, rfl, answered, kept, (found _).trans (if_pos rfl), fun n other stays => ?_, fun n gone => ?_, ?_⟩
      · exact (found n).trans ((if_neg (Ne.symm other)).trans (if_neg stays))
      · have other : req.card ≠ n := by
          rintro rfl
          exact evicts_found (gone ▸ evicts) absent
        exact (found n).trans ((if_neg other).trans (if_pos gone))
      · rw [cards]
        exact endsAs_congr ends rfl

end Sys2Proof.Machine.CardLaws
end

section
/-! PROOFS. The fault table: what writing, removing and scoring an entry makes of its order, its size and its entries (R85,
R90, R91, R95), and CLEAR_FAULT (R99). -/

namespace Sys2Proof.Machine.FaultLaws

open Sys2Proof.Machine.Laws RideLaws

/-! ## Entries scored -/

/-- The score and the last-reports list of an entry lie in their ranges (R85). -/
def EntrySound (e : FaultEntry) : Prop :=
  e.score ≤ Config.scoreLimit ∧ 1 ≤ e.reports.length ∧ e.reports.length ≤ Config.reportPlaces

/-- The laws of the fault table: no bike twice and in order, within its size, every entry sound (R85). -/
theorem faultsOrdered_iff (s : State) :
    s.faultsOrdered ↔ s.faults.Pairwise (fun a b => a.bike < b.bike) ∧ s.faults.length ≤ Config.faultPlaces
      ∧ ∀ e ∈ s.faults, EntrySound e := Iff.rfl

/-- A report keeps a score within 15 and leaves 1 to 4 entries on the list (R91). -/
theorem scored_sound {e : FaultEntry} (score : e.score ≤ Config.scoreLimit) (category : Category) (source : Port)
    (card : Option Nat) (time threshold : Nat) : EntrySound (e.scored category source card time threshold) := by
  have limit : Config.scoreLimit = 15 := rfl
  have places : Config.reportPlaces = 4 := rfl
  unfold EntrySound FaultEntry.scored
  refine ⟨?_, ?_⟩
  · dsimp only
    split
    · exact score
    · exact limit ▸ min_le_left ..
  · simp only [List.length_drop, List.length_append, List.length_singleton]
    omega

/-! ## Entries written -/

theorem mem_putFault {e x : FaultEntry} {faults : List FaultEntry} (h : x ∈ putFault e faults) : x = e ∨ x ∈ faults := by
  induction faults with
  | nil => exact .inl (List.mem_singleton.1 h)
  | cons y ys ih =>
    rw [putFault] at h
    split_ifs at h
    · exact List.mem_cons.1 h
    · exact (List.mem_cons.1 h).imp_right (List.mem_cons_of_mem _)
    · rcases List.mem_cons.1 h with rfl | h
      · exact .inr List.mem_cons_self
      · exact (ih h).imp_right (List.mem_cons_of_mem _)

/-- An entry is written at its place in the order (R85; log 20). -/
theorem putFault_ordered {faults : List FaultEntry} (e : FaultEntry)
    (order : faults.Pairwise (fun a b => a.bike < b.bike)) :
    (putFault e faults).Pairwise (fun a b => a.bike < b.bike) := by
  induction faults with
  | nil => exact List.pairwise_singleton ..
  | cons y ys ih =>
    obtain ⟨first, rest⟩ := List.pairwise_cons.1 order
    rw [putFault]
    split_ifs with before same
    · refine List.pairwise_cons.2 ⟨fun x hx => ?_, order⟩
      rcases List.mem_cons.1 hx with rfl | hx
      · exact before
      · exact before.trans (first x hx)
    · exact List.pairwise_cons.2 ⟨fun x hx => same ▸ first x hx, rest⟩
    · refine List.pairwise_cons.2 ⟨fun x hx => ?_, ih rest⟩
      rcases mem_putFault hx with rfl | hx
      · omega
      · exact first x hx

theorem putFault_length_le (e : FaultEntry) (faults : List FaultEntry) :
    (putFault e faults).length ≤ faults.length + 1 := by
  induction faults with
  | nil => exact le_rfl
  | cons y ys ih =>
    rw [putFault]
    split_ifs
    · exact le_rfl
    · exact Nat.le_succ _
    · exact Nat.succ_le_succ ih

/-- An entry written over its bike's own takes no further place. -/
theorem putFault_length_of_found {e old : FaultEntry} {faults : List FaultEntry}
    (order : faults.Pairwise (fun a b => a.bike < b.bike)) (found : findFault e.bike faults = some old) :
    (putFault e faults).length = faults.length := by
  induction faults with
  | nil => cases found
  | cons y ys ih =>
    obtain ⟨first, rest⟩ := List.pairwise_cons.1 order
    rw [findFault_cons] at found
    rw [putFault]
    split_ifs with before same
    · rw [if_neg (by omega)] at found
      have later := first old (List.mem_of_find?_eq_some found)
      have bike := findFault_bike found
      omega
    · rfl
    · rw [if_neg (Ne.symm same)] at found
      rw [List.length_cons, ih rest found, List.length_cons]

/-! ## Places for a report -/

/-- The place found for a report: the laws hold of the table it leaves, the entry's score is within its limit, and the table
takes an entry of its bike within its size. -/
structure PlaceFits (p : Place) : Prop where
  order : p.faults.Pairwise (fun a b => a.bike < b.bike)
  entries : ∀ e ∈ p.faults, EntrySound e
  score : p.entry.score ≤ Config.scoreLimit
  size : ∀ e, e.bike = p.entry.bike → (putFault e p.faults).length ≤ Config.faultPlaces

/-- A fresh entry fits where the table it goes to is a part of a lawful one with a place free (R90, R95). -/
theorem PlaceFits.of_fresh {s : State} (law : s.faultsOrdered) {faults : List FaultEntry} (part : faults.Sublist s.faults)
    (free : faults.length < Config.faultPlaces) (bike time : Nat) (created : Bool) (replaced : Option Nat) :
    PlaceFits ⟨freshFault bike time, faults, created, replaced⟩ := by
  obtain ⟨order, -, entries⟩ := (faultsOrdered_iff s).1 law
  exact ⟨order.sublist part, fun e he => entries e (part.subset he), Nat.zero_le _,
    fun e _ => (putFault_length_le e faults).trans free⟩

/-- The place of a bike's own entry, of a fresh one, or of one that replaces an entry (R90, R95). -/
theorem placeReport_fits {s : State} (law : s.faultsOrdered) {bike : Nat} {p : Place}
    (h : s.placeReport bike = some p) : PlaceFits p := by
  obtain ⟨order, size, entries⟩ := (faultsOrdered_iff s).1 law
  unfold State.placeReport at h
  split at h
  · next old found =>
    cases h
    obtain ⟨score, -⟩ := entries old (List.mem_of_find?_eq_some found)
    refine ⟨order, entries, score, fun e he => ?_⟩
    have found : findFault e.bike s.faults = some old := by rw [he, findFault_bike found]; exact found
    exact (putFault_length_of_found order found).trans_le size
  · split at h
    · next free =>
      cases h
      exact .of_fresh law (.refl _) free ..
    · split at h
      · next old chosen =>
        cases h
        have stands : old ∈ s.faults := List.mem_of_mem_filter (pickBest_mem chosen)
        have shorter : (eraseFault old.bike s.faults).length < s.faults.length :=
          List.length_filter_lt_length_iff_exists.2 ⟨old, stands, by simp⟩
        exact .of_fresh law List.filter_sublist (shorter.trans_le size) ..
      · cases h

/-- An entry scored and written at its place keeps the laws of the table (R85, R91). -/
theorem PlaceFits.scored {p : Place} (h : PlaceFits p) (s : State) (r : Report) {t : State}
    (ht : t.faults = putFault (reportedEntry s r p) p.faults) : t.faultsOrdered := by
  rw [faultsOrdered_iff, ht]
  refine ⟨putFault_ordered _ h.order, h.size _ rfl, fun e he => ?_⟩
  rcases mem_putFault he with rfl | he
  · exact scored_sound h.score ..
  · exact h.entries e he

/-! ## CLEAR_FAULT -/

theorem ownClearFault_absent {s : State} {p : Port} {bike : Nat} (h : s.fault bike = none) :
    ownClearFault p bike s = refuse .notFound s := by
  rw [ownClearFault, h]

theorem ownClearFault_found {s : State} {p : Port} {bike : Nat} {e : FaultEntry} (h : s.fault bike = some e) :
    ownClearFault p bike s = accept (.faultCleared e.score e.categories e.quarantined)
      (State.appendIfRoom (.faultClear bike p) { s with faults := eraseFault bike s.faults }) := by
  rw [ownClearFault, h]

/-- What an accepted CLEAR_FAULT leaves, as its statement spells it, whatever the port units: a FAULT_CLEAR record names no
card (R99). -/
theorem clearedStation (s : State) (units : PortUnits) (bike : Nat) (p : Port) :
    let v := { (if 1 ≤ s.freeSlots then s.withRecord (.faultClear bike p) else s) with faults := eraseFault bike s.faults }
    let erased := { s with faults := eraseFault bike s.faults, ports := units }
    v = { erased.appendIfRoom (.faultClear bike p) with ports := v.ports } := by
  intro v erased
  by_cases free : 1 ≤ s.freeSlots
  · rw [appendIfRoom_of_room (s := erased) (body := .faultClear bike p) free]
    simp only [v, if_pos free]
    rfl
  · rw [appendIfRoom_of_full (s := erased) (body := .faultClear bike p) (Nat.lt_of_not_le free)]
    simp only [v, if_neg free]
    rfl

/-- Settles O32, by whether the bike has an entry. -/
theorem clearFaultRemovesEntry : Obligations.ClearFaultRemovesEntry := by
  unfold Obligations.ClearFaultRemovesEntry
  intro s p bytes bike h
  refine ⟨fun absent => ⟨_, rfl, serve_refused h (ownClearFault_absent absent)⟩, fun e found => ?_⟩
  let u := s.endRequest p (bytes.length + 1)
  have own := ownClearFault_found (s := u) (p := p) found
  have grows : PortsGrow (State.appendIfRoom (.faultClear bike p) { u with faults := eraseFault bike u.faults }) u :=
    (appendIfRoom_grows ..).trans (.of_ports rfl)
  obtain ⟨answered, ends, kept, -⟩ := serve_accepted h rfl own grows.follow
  exact ⟨_, rfl, answered, kept, endsAs_congr ends (clearedStation s u.ports bike p)⟩

end Sys2Proof.Machine.FaultLaws
end

section
/-! PROOFS. What the operations make of the fault table: the reports write it, and the rest leave it (R85, R89, R98). -/

namespace Sys2Proof.Machine.FaultLaws

open Sys2Proof.Machine.Laws RideLaws

/-! ## The ends of releases and holds -/

@[simp] theorem loseHold_faults (s : State) (d : DockNo) (h : HoldRecord) (cause : LossCause) :
    (s.loseHold d h cause).faults = s.faults := outcome_faults ..

@[simp] theorem expireHold_faults (s : State) (d : DockNo) (b : DockedBike) (h : HoldRecord) :
    (s.expireHold d b h).faults = s.faults := outcome_faults ..

@[simp] theorem endLapsed_faults (s : State) (d : DockNo) (r : ReleaseRecord) (reason : LapseReason) :
    (s.endLapsed d r reason).faults = s.faults := outcome_faults ..

@[simp] theorem lapseRelease_faults (s : State) (d : DockNo) (b : DockedBike) (r : ReleaseRecord) (reason : LapseReason) :
    (s.lapseRelease d b r reason).faults = s.faults := by
  rw [State.lapseRelease, endLapsed_faults, putDockState_faults, giveUp_faults]

@[simp] theorem completeRelease_faults (s : State) (d : DockNo) (b : DockedBike) (r : ReleaseRecord) :
    (s.completeRelease d b r).faults = s.faults := by
  simp [State.completeRelease]

theorem tickDock_faults (s : State) (d : DockNo) : (s.tickDock d).faults = s.faults := by
  unfold State.tickDock
  split
  · split
    · exact expireHold_faults ..
    · rfl
  · split
    · exact lapseRelease_faults ..
    · rfl
  all_goals rfl

/-! ## Van jobs -/

@[simp] theorem settleJob_faults (s : State) (slot : SlotNo) (j : JobRecord) : (s.settleJob slot j).faults = s.faults := by
  rw [(settleJob_kept s slot j).1]

/-- Work on a numbered job leaves the fault table where the work itself does. -/
theorem withJob_faults (s : State) (number : Nat) {work : SlotNo → JobRecord → State → State}
    (h : ∀ slot j, (work slot j s).faults = s.faults) : (s.withJob number work).faults = s.faults := by
  unfold State.withJob
  split
  · rfl
  · split
    · exact h ..
    · rfl

@[simp] theorem countRemoval_faults (s : State) (number : Nat) (d : DockNo) (b : DockedBike) :
    (s.countRemoval number d b).faults = s.faults := withJob_faults _ _ (fun _ _ => settleJob_faults ..)

@[simp] theorem faultItem_faults (s : State) (number : Nat) (d : DockNo) : (s.faultItem number d).faults = s.faults :=
  withJob_faults _ _ (fun _ _ => settleJob_faults ..)

@[simp] theorem countDelivery_faults (s : State) (number : Nat) (d : DockNo) (bike : Nat) :
    (s.countDelivery number d bike).faults = s.faults := withJob_faults _ _ (fun _ _ => settleJob_faults ..)

@[simp] theorem remark_faults (s : State) (number : Nat) (d : DockNo) : (s.remark number d).faults = s.faults := by
  refine withJob_faults _ _ (fun slot j => ?_)
  dsimp only
  split <;> simp

@[simp] theorem returnDock_faults (s : State) (d : DockNo) : (s.returnDock d).faults = s.faults := by
  unfold State.returnDock
  split <;> rfl

@[simp] theorem countStray_faults (s : State) (d : DockNo) (bike : Nat) : (s.countStray d bike).faults = s.faults := by
  unfold State.countStray
  split
  · rfl
  · split
    · rfl
    · dsimp only
      split <;> simp

@[simp] theorem cutJob_faults (s : State) (slot : SlotNo) (j : JobRecord) (add : EndConditions → EndConditions) :
    (s.cutJob slot j add).faults = s.faults := by
  have returned := foldl_keeps State.returnDock State.faults returnDock_faults j.openDocks s
  unfold State.cutJob
  dsimp only
  rw [endJob_faults]
  split
  · rw [giveUp_faults, returned]
  · exact returned

theorem tickJob_faults (s : State) (slot : SlotNo) : (s.tickJob slot).faults = s.faults := by
  unfold State.tickJob
  split
  · rfl
  · split
    · rfl
    · split
      · exact cutJob_faults ..
      · rfl

theorem markDock_faults (number : Nat) (s : State) (d : DockNo) : (s.markDock number d).faults = s.faults := by
  unfold State.markDock
  split <;> rfl

theorem startWalk_faults (s : State) (slot : SlotNo) (req : StartReq) (j : JobRecord) :
    (s.startWalk slot req j).faults = s.faults := by
  have marked : ∀ (number : Nat) (l : List DockNo), (l.foldl (State.markDock number) s).faults = s.faults :=
    fun number l => foldl_keeps (State.markDock number) State.faults (markDock_faults number) l s
  unfold State.startWalk
  dsimp only
  split
  · exact endJob_faults ..
  all_goals
    split
    · exact endJob_faults ..
    · split <;> simp [marked]

theorem startJob_faults (s : State) (slot : SlotNo) (origin : CrewPort) (req : StartReq) :
    (s.startJob slot origin req).faults = s.faults := startWalk_faults ..

theorem resetJob_faults (s : State) (slot : SlotNo) : (s.resetJob slot).faults = s.faults := by
  unfold State.resetJob
  split
  · rfl
  · split <;> rfl

/-! ## Docks -/

theorem dockFault_faults (s : State) (kind : DockFaultKind) (d : DockNo) : (s.dockFault kind d).faults = s.faults := by
  unfold State.dockFault
  dsimp only
  split <;> simp

/-- A census reads the fault table and does not write it (R19, R98). -/
theorem censusItem_faults (s : State) (i : CensusItem) : (s.censusItem i).faults = s.faults := by
  have missing : ∀ (found : Option DockedBike) (u : State),
      (match found with
        | some b => u.recordMissing b.bike i.dock
        | none => u).faults = u.faults := by
    intro found u
    cases found with
    | none => rfl
    | some b => exact appendIfRoom_faults ..
  unfold State.censusItem
  dsimp only
  split
  · rfl
  · split
    · split
      · exact (loseHold_faults ..).trans (missing ..)
      all_goals exact missing ..
    · rfl

theorem markFetched_faults (s : State) (d : DockNo) : (s.markFetched d).faults = s.faults := by
  unfold State.markFetched
  split <;> rfl

theorem fetch_faults (s : State) (c : Command) : (s.fetch c).faults = s.faults := by
  cases c with
  | unlock d token => exact markFetched_faults ..
  | batchUnlock number docks => exact withJob_faults _ _ (fun _ _ => rfl)
  | relock docks => rfl
  | readToken d => rfl

/-! ## Returns -/

theorem chargeRide_faults (s : State) (t : Token) (bike : Nat) (d : DockNo) (returnTime : Nat) (plan : Plan)
    (substituted : Bool) : (s.chargeRide t bike d returnTime plan substituted).station.faults = s.faults := by
  unfold State.chargeRide
  dsimp only
  split <;> rfl

theorem settle_faults (s : State) (t : Token) (bike : Nat) (d : DockNo) (returnTime : Nat) :
    (s.settle t bike d returnTime).station.faults = s.faults := by
  unfold State.settle
  dsimp only
  split
  · rfl
  · split
    · split
      · exact chargeRide_faults ..
      · rfl
    · rfl

theorem settleReturn_faults (s : State) (t : Token) (d : DockNo) (bike : Nat) :
    (s.settleReturn t d bike).station.faults = s.faults := by
  unfold State.settleReturn
  dsimp only
  split <;> exact settle_faults ..

/-! ## Reports -/

theorem takeReport_faults (s : State) (r : Report) (p : Place) :
    (s.takeReport r p).faults = putFault (reportedEntry s r p) p.faults :=
  (congrArg State.faults (takeReport_effects s r p) :)

/-- From `s` to `t` the laws of the fault table are kept (R85). -/
structure FaultsKept (t s : State) : Prop where
  ordered : s.faultsOrdered → t.faultsOrdered

theorem FaultsKept.trans {t u s : State} (h1 : FaultsKept t u) (h2 : FaultsKept u s) : FaultsKept t s :=
  ⟨h1.ordered ∘ h2.ordered⟩

/-- The laws read the fault table alone. -/
theorem FaultsKept.of_same {t s : State} (h : t.faults = s.faults) : FaultsKept t s := by
  constructor
  rw [faultsOrdered_iff, faultsOrdered_iff, h]
  exact id

theorem FaultsKept.refl (s : State) : FaultsKept s s := ⟨id⟩

/-- A report taken on the place found for it keeps the laws (R91, R95). -/
theorem takeReport_kept {s : State} {bike : Nat} {p : Place} (h : s.placeReport bike = some p) (r : Report) :
    FaultsKept (s.takeReport r p) s :=
  ⟨fun law => (placeReport_fits law h).scored s r (takeReport_faults s r p)⟩

theorem internalReport_kept (s : State) (bike : Nat) (d : DockNo) (category : Category) :
    FaultsKept (s.internalReport bike d category) s := by
  unfold State.internalReport
  dsimp only
  split
  · next p place => exact takeReport_kept place _
  · exact .of_same (appendIfRoom_faults ..)

theorem forceRemoval_kept (s : State) (d : DockNo) (b : DockedBike) (hold : Option HoldRecord) :
    FaultsKept (s.forceRemoval d b hold) s := by
  unfold State.forceRemoval
  refine (internalReport_kept ..).trans (.of_same ?_)
  cases hold with
  | none => rfl
  | some hold => exact loseHold_faults ..

/-- Entries removed keep the laws of those that stay (R99). -/
theorem FaultsKept.of_sublist {t s : State} (h : t.faults.Sublist s.faults) : FaultsKept t s :=
  ⟨fun ⟨order, size, entries⟩ => ⟨order.sublist h, h.length_le.trans size, fun e he => entries e (h.subset he)⟩⟩

/-- An empty table keeps every law (R101). -/
theorem FaultsKept.of_noFaults {t : State} (s : State) (h : t.faults = []) : FaultsKept t s :=
  .of_sublist (h ▸ List.nil_sublist _)

/-! ## The end of an event -/

theorem loseLink_faults (s : State) : s.loseLink.faults = s.faults := by
  unfold State.loseLink
  split <;> rfl

theorem switchTariff_faults (s : State) : s.switchTariff.faults = s.faults := by
  unfold State.switchTariff
  split <;> rfl

theorem tickStale_faults (s : State) : s.tickStale.faults = s.faults := by
  unfold State.tickStale
  dsimp only
  split
  · exact loseLink_faults _
  · rfl

theorem holderWork_faults (s : State) (holder : TickHolder) : (s.holderWork holder).faults = s.faults := by
  cases holder with
  | docks => exact foldl_keeps State.tickDock State.faults tickDock_faults ..
  | vans => exact foldl_keeps State.tickJob State.faults tickJob_faults ..
  | fares => exact switchTariff_faults s
  | stale => exact tickStale_faults s

theorem takeTick_faults (s : State) (holder : TickHolder) : (s.takeTick holder).faults = s.faults := by
  unfold State.takeTick
  split
  · exact (closeEvent_faults ..).trans (holderWork_faults ..)
  · rfl

theorem takeTicks_faults (l : List TickHolder) (s : State) : (l.foldl State.takeTick s).faults = s.faults :=
  foldl_keeps State.takeTick State.faults takeTick_faults l s

/-- A request's event ends with the fault table its owner left. -/
theorem finishFrame_faults (p : Port) (first : Byte) (bytes : List Byte) (restarts : Bool) (x : Handled) (s : State) :
    (finishFrame p first bytes restarts x s).faults = x.station.faults := by
  unfold finishFrame
  dsimp only
  split <;> simp

theorem takeFrame_kept {p : Port} {first : Byte} {bytes : List Byte} {restarts : Bool} {judge : State → Handled} {s : State}
    (h : ∀ u, FaultsKept (judge u).station u) : FaultsKept (takeFrame p first bytes restarts judge s) s := by
  unfold takeFrame
  split
  · exact .of_same rfl
  · dsimp only
    split
    · exact .of_same rfl
    · exact .trans (.of_same (finishFrame_faults ..)) (.trans (h _) (.of_same rfl))

/-- A judged request keeps the laws where the accepted work does: a refusal writes nothing (R176). -/
theorem orRefuse_kept {α : Type} {judged : Except RefusalReason α} {u : State} {work : α → Handled}
    (h : ∀ x, FaultsKept (work x).station u) : FaultsKept (orRefuse judged u work).station u := by
  unfold orRefuse
  split
  · exact h _
  · exact .refl u

/-- A request keeps the laws where its owner does. -/
theorem serve_kept {α : Type} {kind : ReqKind} {p : Port} {bytes : List Byte} {read : List Byte → Except RefusalReason α}
    {owner : α → State → Handled} {s : State} (h : ∀ req (u : State), FaultsKept (owner req u).station u) :
    FaultsKept (serve kind p bytes read owner s) s := takeFrame_kept fun u => orRefuse_kept fun req => h req u

end Sys2Proof.Machine.FaultLaws
end

section
/-! PROOFS. What each command makes of the fault table, and that every step keeps its order, its size, its scores and its
lists (R85). -/

namespace Sys2Proof.Machine.FaultLaws

open Sys2Proof.Machine.Laws RideLaws JournalLaws

/-! ## The owners that report on a bike or clear its entry -/

theorem ownReportFault_kept (p : Port) (req : ReportReq) (u : State) : FaultsKept (ownReportFault p req u).station u := by
  unfold ownReportFault
  split
  · refine orRefuse_kept fun bike => ?_
    split
    · exact .refl u
    · split
      · exact .refl u
      · next place found => exact takeReport_kept found _
  · exact .refl u

theorem ownClearFault_kept (p : Port) (bike : Nat) (u : State) : FaultsKept (ownClearFault p bike u).station u := by
  cases found : u.fault bike with
  | none => rw [ownClearFault_absent found]; exact .refl u
  | some e =>
    rw [ownClearFault_found found]
    refine .of_sublist ?_
    rw [accept_station, appendIfRoom_faults]
    exact List.filter_sublist

/-- A removal outside a release or a job makes a FORCED_REMOVAL report (R13). -/
theorem ownRemoved_kept (req : RemovedReq) (u : State) : FaultsKept (ownRemoved req u).station u := by
  unfold ownRemoved
  dsimp only
  split
  case h_6 b _ => exact forceRemoval_kept u req.dock b none
  case h_7 b hold _ => exact forceRemoval_kept u req.dock b (some hold)
  case h_8 => exact .of_same (completeRelease_faults ..)
  case h_9 => exact .of_same (by simp)
  all_goals exact .of_same rfl

/-- A token report without a token makes a TAG report (R46). -/
theorem ownTokenReport_kept (req : ReturnReq) (u : State) : FaultsKept (ownTokenReport req u).station u := by
  have settled : ∀ (t : Token) (bike time : Nat), (u.endWait.settle t bike req.dock time).station.faults = u.faults :=
    fun _ _ _ => settle_faults ..
  unfold ownTokenReport
  dsimp only
  split
  · split
    · exact .refl u
    · split
      · split <;> exact .of_same (settled ..)
      · exact .trans (internalReport_kept ..) (.of_same rfl)
  · exact .refl u

/-! ## The owners that leave the table -/

/-- A judged request leaves the fault table where the accepted work does. -/
theorem orRefuse_faults {α : Type} {judged : Except RefusalReason α} {u : State} {work : α → Handled}
    (h : ∀ x, (work x).station.faults = u.faults) : (orRefuse judged u work).station.faults = u.faults := by
  unfold orRefuse
  split
  · exact h _
  · rfl

theorem ownRelease_faults (p : Port) (req : RideReq) (u : State) : (ownRelease p req u).station.faults = u.faults :=
  orRefuse_faults fun _ => rfl

theorem ownHold_faults (p : Port) (req : RideReq) (u : State) : (ownHold p req u).station.faults = u.faults :=
  orRefuse_faults fun _ => rfl

theorem ownHoldCancel_faults (p : Port) (card : Nat) (u : State) : (ownHoldCancel p card u).station.faults = u.faults := by
  unfold ownHoldCancel
  split
  · rfl
  · split
    · rfl
    · split
      · split <;> rfl
      all_goals rfl

theorem ownQuote_faults (req : QuoteReq) (u : State) : (ownQuote req u).station.faults = u.faults := by
  unfold ownQuote
  split
  · split
    · rfl
    · split <;> rfl
  · rfl

theorem ownTopup_faults (req : TopupReq) (u : State) : (ownTopup req u).station.faults = u.faults := by
  unfold ownTopup
  split
  · rfl
  · split
    · rfl
    · split_ifs <;> simp

theorem ownCardStatus_faults (query : Option Nat) (u : State) : (ownCardStatus query u).station.faults = u.faults := by
  unfold ownCardStatus
  split
  · split <;> rfl
  · rfl

theorem ownFaultStatus_faults (query : FaultQuery) (u : State) : (ownFaultStatus query u).station.faults = u.faults := by
  unfold ownFaultStatus
  split
  · split <;> rfl
  · rfl

theorem ownFetchCommand_faults (x : Unit) (u : State) : (ownFetchCommand x u).station.faults = u.faults := by
  unfold ownFetchCommand
  split
  · rfl
  · exact fetch_faults ..

theorem ownInserted_faults (req : ReturnReq) (u : State) : (ownInserted req u).station.faults = u.faults := by
  unfold ownInserted
  dsimp only
  split
  case h_1 =>
    split
    · exact countStray_faults ..
    · exact settleReturn_faults ..
  case h_2 =>
    split
    · exact countDelivery_faults ..
    · exact (remark_faults ..).trans (settleReturn_faults ..)
  case h_3 => exact dockFault_faults ..
  all_goals rfl

theorem reportDockFault_faults (kind : DockFaultKind) (d : DockNo) (u : State) :
    (reportDockFault kind d u).station.faults = u.faults := by
  unfold reportDockFault
  split
  · rfl
  · exact dockFault_faults ..

theorem ownCensus_faults (req : CensusReq) (u : State) : (ownCensus req u).station.faults = u.faults := by
  unfold ownCensus
  split
  · exact foldl_keeps State.censusItem State.faults censusItem_faults ..
  · rfl

theorem ownDockRestore_faults (d : DockNo) (u : State) : (ownDockRestore d u).station.faults = u.faults := by
  unfold ownDockRestore
  split <;> rfl

theorem ownDockStatus_faults (query : Option DockNo) (u : State) : (ownDockStatus query u).station.faults = u.faults := by
  unfold ownDockStatus
  split <;> rfl

theorem ownStartJob_faults (p : Port) (req : StartReq) (u : State) : (ownStartJob p req u).station.faults = u.faults := by
  refine orRefuse_faults fun slot => ?_
  dsimp only
  split
  · exact startJob_faults ..
  · rfl

theorem ownJobStatus_faults (p : Port) (number : Option Nat) (u : State) :
    (ownJobStatus p number u).station.faults = u.faults := by
  unfold ownJobStatus
  split
  · exact orRefuse_faults fun _ => rfl
  · rfl

theorem ownRetireJob_faults (p : Port) (number : Nat) (u : State) : (ownRetireJob p number u).station.faults = u.faults := by
  refine orRefuse_faults fun x => ?_
  split <;> rfl

theorem ownAbortJob_faults (p : Port) (number : Nat) (u : State) : (ownAbortJob p number u).station.faults = u.faults := by
  refine orRefuse_faults fun x => ?_
  split
  · rw [accept_station, cutJob_faults]
  · rfl

theorem ownConfigure_faults (req : ConfigureReq) (u : State) : (ownConfigure req u).station.faults = u.faults := by
  unfold ownConfigure State.configure
  split
  · rfl
  · dsimp only [accept]
    split_ifs <;> rfl

theorem ownClockSet_faults (new : Nat) (u : State) : (ownClockSet new u).station.faults = u.faults := appendIfRoom_faults ..

theorem ownSetMode_faults (mode : StationMode) (u : State) : (ownSetMode mode u).station.faults = u.faults := by
  unfold ownSetMode
  split <;> rfl

theorem ownCardLoad_faults (req : LoadReq) (u : State) : (ownCardLoad req u).station.faults = u.faults := by
  unfold ownCardLoad
  split_ifs
  · rfl
  · rfl
  · split
    · rfl
    · split <;> rfl

theorem ownCardDrop_faults (card : Nat) (u : State) : (ownCardDrop card u).station.faults = u.faults := by
  unfold ownCardDrop
  split
  · rfl
  · split <;> rfl

theorem ownTariffStage_faults (req : StagedSet) (u : State) : (ownTariffStage req u).station.faults = u.faults := by
  unfold ownTariffStage
  split <;> rfl

theorem ownJournalRead_faults (req : ReadReq) (u : State) : (ownJournalRead req u).station.faults = u.faults := by
  unfold ownJournalRead
  split <;> rfl

theorem ownJournalRelease_faults (through : Nat) (u : State) : (ownJournalRelease through u).station.faults = u.faults := by
  unfold ownJournalRelease
  split_ifs <;> rfl

/-! ## Resets and the events outside requests -/

theorem countSecond_faults (s : State) : s.countSecond.faults = s.faults := by
  unfold State.countSecond
  split_ifs <;> rfl

theorem dockExpiry_faults (s : State) (d : DockNo) : (s.dockExpiry d).faults = s.faults := by
  unfold State.dockExpiry
  split
  · exact takeTick_faults ..
  · exact (closeEvent_faults ..).trans (tickDock_faults ..)

/-- A warm reset keeps the fault table (R101). -/
theorem warmRecords_faults (s : State) : s.warmRecords.faults = s.faults :=
  foldl_keeps State.resetJob State.faults resetJob_faults allSlots _

/-! ## Every command -/

/-- Where a command answers a next state, that state keeps the laws of the fault table. -/
abbrev NextKeeps (s : State) : Host.Outcome State Fault Refusal → Prop := NextHas (fun t => FaultsKept t s)

/-- A request whose owner leaves the fault table keeps its laws. -/
theorem serve_same {α : Type} {kind : ReqKind} {p : Port} {bytes : List Byte} {read : List Byte → Except RefusalReason α}
    {owner : α → State → Handled} {s : State} (h : ∀ req (u : State), (owner req u).station.faults = u.faults) :
    NextKeeps s (.next (serve kind p bytes read owner s)) := .next (serve_kept fun req u => .of_same (h req u))

/-- An event outside requests that leaves the fault table keeps its laws. -/
theorem next_same {s u : State} (h : u.faults = s.faults) : NextKeeps s (.next u) := .next (.of_same h)

/-- An event that acts under a condition, or changes nothing, and leaves the fault table either way. -/
theorem ite_same {c : Prop} [Decidable c] {s u : State} (h : u.faults = s.faults) :
    NextKeeps s (if c then .next u else .next s) := .ite (next_same h) (next_same rfl)

theorem execAnswerRead_kept (p : Port) (clocked : Nat) (s : State) : NextKeeps s (execAnswerRead p clocked s) := by
  refine .ite (next_same rfl) ?_
  split <;> exact next_same rfl

theorem execTick_kept (takers : List TickHolder) (s : State) : NextKeeps s (execTick takers s) := by
  refine .ite (next_same (countSecond_faults s)) (next_same ?_)
  rw [takeTicks_faults, closeEvent_faults]
  exact (countSecond_faults _).trans (takeTicks_faults ..)

theorem execVanWindowExpiry_kept (slot : SlotNo) (s : State) : NextKeeps s (execVanWindowExpiry slot s) := by
  refine ite_same ?_
  split
  · exact takeTick_faults ..
  · exact (closeEvent_faults ..).trans (tickJob_faults ..)

theorem execStaleTimerExpiry_kept (s : State) : NextKeeps s (execStaleTimerExpiry s) := by
  refine ite_same ?_
  split
  · exact (closeEvent_faults ..).trans (loseLink_faults s)
  · exact takeTick_faults ..

/-- Every command keeps the laws of the fault table, by what its owner or its event makes of it. -/
theorem exec_kept (i : Instr) (s : State) : NextKeeps s (exec i s) := by
  cases i with
  | reportFault p bytes => exact .next (serve_kept (ownReportFault_kept p))
  | clearFault p bytes => exact .next (serve_kept (ownClearFault_kept p))
  | removed p bytes => exact .next (serve_kept ownRemoved_kept)
  | tokenReport p bytes => exact .next (serve_kept ownTokenReport_kept)
  | factoryClear p bytes => exact .next (serve_kept (fun _ u => .of_noFaults u rfl))
  | coldReset => exact .ite (.next (.of_noFaults s rfl)) (next_same rfl)
  | release p bytes => exact serve_same (ownRelease_faults p)
  | hold p bytes => exact serve_same (ownHold_faults p)
  | holdCancel p bytes => exact serve_same (ownHoldCancel_faults p)
  | quote p bytes => exact serve_same ownQuote_faults
  | topup p bytes => exact serve_same ownTopup_faults
  | cardStatus p bytes => exact serve_same ownCardStatus_faults
  | dockRestore p bytes => exact serve_same ownDockRestore_faults
  | faultStatus p bytes => exact serve_same ownFaultStatus_faults
  | fetchCommand p bytes => exact serve_same ownFetchCommand_faults
  | inserted p bytes => exact serve_same ownInserted_faults
  | lockJam p bytes => exact serve_same (reportDockFault_faults .lockJam)
  | sensorFault p bytes => exact serve_same (fun (req : SensorReq) => reportDockFault_faults req.fault req.dock)
  | census p bytes => exact serve_same ownCensus_faults
  | startJob p bytes => exact serve_same (ownStartJob_faults p)
  | jobStatus p bytes => exact serve_same (ownJobStatus_faults p)
  | retireJob p bytes => exact serve_same (ownRetireJob_faults p)
  | abortJob p bytes => exact serve_same (ownAbortJob_faults p)
  | configure p bytes => exact serve_same ownConfigure_faults
  | clockSet p bytes => exact serve_same ownClockSet_faults
  | setMode p bytes => exact serve_same ownSetMode_faults
  | cardLoad p bytes => exact serve_same ownCardLoad_faults
  | cardDrop p bytes => exact serve_same ownCardDrop_faults
  | tariffStage p bytes => exact serve_same ownTariffStage_faults
  | journalRead p bytes => exact serve_same ownJournalRead_faults
  | journalRelease p bytes => exact serve_same ownJournalRelease_faults
  | dockStatus p bytes => exact serve_same ownDockStatus_faults
  | stationStatus p bytes => exact serve_same (fun _ _ => rfl)
  | readNotices p bytes => exact serve_same (fun _ _ => rfl)
  | setNoticeEnables p bytes => exact serve_same (fun _ _ => rfl)
  | unknownRequest p kind bytes => exact .ite (.next (takeFrame_kept fun u => .refl u)) (.refused _)
  | answerRead p clocked => exact execAnswerRead_kept p clocked s
  | tick takers => exact execTick_kept takers s
  | holdExpiry d => exact ite_same (dockExpiry_faults s d)
  | unlockWindowExpiry d => exact ite_same (dockExpiry_faults s d)
  | vanWindowExpiry slot => exact execVanWindowExpiry_kept slot s
  | staleTimerExpiry => exact execStaleTimerExpiry_kept s
  | tariffSwitch => exact ite_same (takeTick_faults ..)
  | resettlementSweep => exact .ite (next_same rfl) (next_same (sweep_faults s))
  | resetHold cause underWay => exact next_same (foldl_keeps State.spoil State.faults (fun _ _ => rfl) underWay _)
  | retentionLoss => exact ite_same rfl
  | warmReset => exact ite_same (warmRecords_faults s)
  | selectDuringHold p => exact ite_same rfl
  | spoiledTransferEnd p => exact ite_same rfl

/-- Settles O56: each command keeps the order and the size of the table, its scores and its lists. -/
theorem stepKeepsFaultTable : Obligations.StepKeepsFaultTable := by
  unfold Obligations.StepKeepsFaultTable
  intro s t law e
  unfold step at e
  split at e
  · exact NextHas.next law t e
  · next c cs _ => exact (exec_kept c { s with pending := cs } t e).ordered law

end Sys2Proof.Machine.FaultLaws
end

section
/-! PROOFS. Docks marked for a job and given back (R110 to R112, R123), and what an event's end leaves of the rail command
queue. -/

namespace Sys2Proof.Machine.VanLaws

open Sys2Proof.Machine.Laws Sys2Proof.Machine.RideLaws

/-! ## Docks rewritten one after another -/

/-- The docks of a list are rewritten one after another; a dock that the list names twice is rewritten twice. -/
def rewriteDocks (g : Dock → Dock) (l : List DockNo) (s : State) : State :=
  l.foldl (fun u d => u.withDock d (g (u.dock d))) s

theorem withDock_dock (s : State) (d e : DockNo) (x : Dock) :
    (s.withDock d x).dock e = if e = d then x else s.dock e := by
  split
  · next h => subst h; exact withDock_dock_self ..
  · next h => exact withDock_dock_ne _ _ h

/-- A rewriting that is done once and for all reaches exactly the docks of the list. -/
theorem rewriteDocks_dock {g : Dock → Dock} (idem : ∀ x, g (g x) = g x) (l : List DockNo) (s : State) (e : DockNo) :
    (rewriteDocks g l s).dock e = if e ∈ l then g (s.dock e) else s.dock e := by
  induction l generalizing s with
  | nil => simp [rewriteDocks]
  | cons d ds ih =>
    show (rewriteDocks g ds (s.withDock d (g (s.dock d)))).dock e = _
    rw [ih, withDock_dock]
    by_cases h : e = d
    · subst h
      simp [idem]
    · simp [h]

/-- Of the station it writes the dock table alone. -/
theorem rewriteDocks_eq (g : Dock → Dock) (l : List DockNo) (s : State) :
    rewriteDocks g l s = { s with rail := { s.rail with docks := (rewriteDocks g l s).rail.docks } } := by
  induction l generalizing s with
  | nil => rfl
  | cons d ds ih => exact ih _

/-! ## Docks given back -/

theorem returnDock_withDock (s : State) (d : DockNo) : s.returnDock d = s.withDock d (returned (s.dock d)) := by
  unfold State.returnDock returned
  cases h : (s.dock d).state <;> dsimp only
  case vanHeld b n => exact putDock_withDock _ _ _ (by rw [h]; rfl)
  case vanReserved n => exact putDock_withDock _ _ _ (by rw [h]; rfl)
  all_goals exact (withDock_same ..).symm

theorem returnDocks_eq (l : List DockNo) (s : State) : l.foldl State.returnDock s = rewriteDocks returned l s :=
  congrArg (fun f => l.foldl f s) (funext fun _ => funext fun _ => returnDock_withDock ..)

/-! ## Docks marked -/

/-- A dock marked for a job: VAN_HELD with its bike, or VAN_RESERVED. -/
def marked (number : Nat) (x : Dock) : Dock :=
  match x.state with
  | .docked b => { x with state := .vanHeld b number }
  | .empty => { x with state := .vanReserved number }
  | .absent | .held _ _ | .unlocking _ _ | .vanHeld _ _ | .vanReserved _ | .outOfService _ _ => x

theorem marked_marked (number : Nat) (x : Dock) : marked number (marked number x) = marked number x := by
  obtain ⟨st, _⟩ := x
  cases st <;> rfl

theorem markDock_withDock (number : Nat) (s : State) (d : DockNo) :
    s.markDock number d = s.withDock d (marked number (s.dock d)) := by
  unfold State.markDock marked
  cases h : (s.dock d).state <;> dsimp only
  case docked b => exact putDock_withDock _ _ _ (by rw [h]; rfl)
  case empty => exact putDock_withDock _ _ _ (by rw [h]; rfl)
  all_goals exact (withDock_same ..).symm

theorem markDocks_eq (number : Nat) (l : List DockNo) (s : State) :
    l.foldl (State.markDock number) s = rewriteDocks (marked number) l s :=
  congrArg (fun f => l.foldl f s) (funext fun _ => funext fun _ => markDock_withDock ..)

/-! ## The queue after an event -/

/-- The end of an event appends a READ_TOKEN to the queue at most (R45). -/
theorem sweptFrom_queue {r : Rail} {u : State} (h : r.sweptFrom u) :
    ∃ rest, r.queue = u.rail.queue ++ rest ∧ ∀ c ∈ rest, ∃ d, c = .readToken d := by
  rcases h with ⟨-, rfl⟩ | ⟨d, -, rfl⟩
  · exact ⟨[], (List.append_nil _).symm, nofun⟩
  · exact ⟨[.readToken d], rfl, fun c hc => ⟨d, List.mem_singleton.1 hc⟩⟩

end Sys2Proof.Machine.VanLaws
end

section
/-! PROOFS. The end of an open job before its items are resolved, and RETIRE_JOB and ABORT_JOB (R9, R123 to R125, R127). -/

namespace Sys2Proof.Machine.VanLaws

open Sys2Proof.Machine.Laws Sys2Proof.Machine.RideLaws

/-! ## The batch of a job given up (R9) -/

/-- The batch of a job that ends, closed as R9 gives; a job without a batch closes none. -/
def closeBatch (j : JobRecord) (s : State) : State :=
  match j.batchFetched with
  | some fetched => s.giveUp (.job j.number) fetched
  | none => s

theorem closeBatch_eq (j : JobRecord) (s : State) :
    closeBatch j s = { s with rail := (closeBatch j s).rail, ports := (closeBatch j s).ports } := by
  unfold closeBatch
  cases j.batchFetched with
  | none => rfl
  | some fetched =>
    dsimp only
    conv_lhs => rw [giveUp_givenUp]
    conv_rhs => rw [giveUp_givenUp]

theorem closeBatch_dock (j : JobRecord) (s : State) (d : DockNo) : (closeBatch j s).dock d = s.dock d := by
  unfold closeBatch
  cases j.batchFetched with
  | none => rfl
  | some fetched => exact giveUp_dock ..

/-- A fetched batch is closed with one RELOCK of the docks still open on it. -/
theorem closeBatch_fetched {j : JobRecord} {s : State} {o : OpenCommand} (fetched : j.batchFetched = some true)
    (found : s.rail.opens.find? (fun o => o.owner == .job j.number) = some o) :
    (closeBatch j s).rail.queue = s.rail.queue ++ [.relock (ascending o.openDocks)] := by
  unfold closeBatch State.giveUp
  rw [fetched]
  dsimp only
  rw [if_pos rfl, found]
  rfl

/-- An unfetched batch is withdrawn. -/
theorem closeBatch_unfetched {j : JobRecord} (s : State) (unfetched : j.batchFetched = some false) (docks : List DockNo) :
    .batchUnlock j.number docks ∉ (closeBatch j s).rail.queue := by
  unfold closeBatch State.giveUp
  rw [unfetched]
  simp [Command.ownedBy]

/-! ## An open job ended before its items are resolved (R123 to R125) -/

/-- Its docks are given back, its batch is closed, and it ends with its OPEN items RETURNED. -/
theorem cutJob_eq (s : State) (slot : SlotNo) (j : JobRecord) (add : EndConditions → EndConditions) :
    s.cutJob slot j add
      = (closeBatch j (rewriteDocks returned j.openDocks s)).endJob slot
          { j with marked := j.marked.map (fun i => if i.outcome = .open then { i with outcome := .returned } else i)
                   conditions := add j.conditions } := by
  unfold State.cutJob
  rw [returnDocks_eq, returnItems_eq]
  rfl

/-- It writes the docks, the batch's place on the rail, the jobs and the journal alone. -/
theorem cutJob_parts (s : State) (slot : SlotNo) (j : JobRecord) (add : EndConditions → EndConditions) :
    let u := s.cutJob slot j add
    u = { s with rail := u.rail, vans := u.vans, journal := u.journal, ports := u.ports } := by
  intro u
  have written : u = _ := cutJob_eq s slot j add
  rw [written, closeBatch_eq, rewriteDocks_eq]
  rfl

theorem cutJob_dock (s : State) (slot : SlotNo) (j : JobRecord) (add : EndConditions → EndConditions) (d : DockNo) :
    (s.cutJob slot j add).dock d = if d ∈ j.openDocks then returned (s.dock d) else s.dock d := by
  rw [cutJob_eq, dock_congr (endJob_rail ..), closeBatch_dock, rewriteDocks_dock returned_returned]

/-- A station whose event ended one job so, once its journal mode and its sweep are done. -/
theorem cutJob_cuts {s t : State} {slot : SlotNo} {j : JobRecord} {add : EndConditions → EndConditions} {mode : JournalMode}
    (vans : t.vans = (s.cutJob slot j add).vans) (records : t.journal.records = (s.cutJob slot j add).journal.records)
    (reserved : t.journal.reserved = (s.cutJob slot j add).journal.reserved)
    (swept : t.rail.sweptFrom ((s.cutJob slot j add).withMode mode))
    (notified : ∀ q k, (s.cutJob slot j add).notified q k → t.notified q k) :
    t.cutsJob s slot j (add j.conditions) ∧ (∀ d, d ∉ j.openDocks → t.dock d = s.dock d)
      ∧ ∀ k, k ≠ slot → t.job k = s.job k := by
  have docks : ∀ d, t.dock d = if d ∈ j.openDocks then returned (s.dock d) else s.dock d := fun d => by
    rw [← cutJob_dock s slot j add d]
    unfold State.dock
    rw [(sweptFrom_rail swept).1]
    rfl
  obtain ⟨reads, queue, onlyReads⟩ := sweptFrom_queue swept
  have written := cutJob_eq s slot j add
  rw [written] at vans records reserved notified
  have kept := closeBatch_eq j (rewriteDocks returned j.openDocks s)
  have rewritten := rewriteDocks_eq returned j.openDocks s
  have base : (closeBatch j (rewriteDocks returned j.openDocks s)).vans = s.vans := by rw [kept, rewritten]
  have journal : (closeBatch j (rewriteDocks returned j.openDocks s)).journal = s.journal := by rw [kept, rewritten]
  have time : (closeBatch j (rewriteDocks returned j.openDocks s)).time = s.time := by rw [kept, rewritten]
  have queued : t.rail.queue = (closeBatch j (rewriteDocks returned j.openDocks s)).rail.queue ++ reads := by
    rw [queue, written]
    rfl
  refine ⟨⟨?_, fun d hd b n hst => ?_, fun d hd n hst => ?_, ?_, ?_, fun k => ?_, ?_, fun fetched o found => ?_,
    fun unfetched l hl => ?_⟩, fun d hd => ?_, fun k hk => ?_⟩
  · rw [job_congr vans, endJob_job_self]
  · rw [docks, if_pos hd, returned, hst]
  · rw [docks, if_pos hd, returned, hst]
  · rw [records, endJob_journal, journal, stamp_congr time]
    rfl
  · rw [reserved, endJob_journal, journal]
    rfl
  · rw [vans, ← base]
    exact leaveClaim_claims ..
  · exact notified _ _ (endJob_notified ..)
  · have sameOpens : (rewriteDocks returned j.openDocks s).rail.opens = s.rail.opens := by rw [rewritten]
    have sameQueue : (rewriteDocks returned j.openDocks s).rail.queue = s.rail.queue := by rw [rewritten]
    refine ⟨reads, ?_⟩
    rw [queued, closeBatch_fetched fetched (sameOpens ▸ found), sameQueue, List.append_assoc]
    rfl
  · rw [queued, List.mem_append] at hl
    rcases hl with hl | hl
    · exact closeBatch_unfetched _ unfetched l hl
    · obtain ⟨d, hd⟩ := onlyReads _ hl
      cases hd
  · rw [docks, if_neg hd]
  · rw [job_congr vans, endJob_job_ne _ _ hk, job_congr base]

theorem cutJob_grows (s : State) (slot : SlotNo) (j : JobRecord) (add : EndConditions → EndConditions) :
    PortsGrow (s.cutJob slot j add) s := by
  have given : PortsGrow (closeBatch j (rewriteDocks returned j.openDocks s)) (rewriteDocks returned j.openDocks s) := by
    unfold closeBatch
    cases j.batchFetched with
    | none => exact .refl _
    | some fetched => exact giveUp_grows ..
  rw [cutJob_eq]
  exact (endJob_grows ..).trans (given.trans (.of_ports (by rw [rewriteDocks_eq])))

/-! ## The job that a request names (R124, R126, R127) -/

theorem namedJob_unknown {s : State} {p : Port} {number : Nat} (h : s.slotOf number = none) :
    s.namedJob p number = .error .jobUnknown := by
  rw [State.namedJob, h]

theorem namedJob_some {s : State} {p : Port} {number : Nat} {slot : SlotNo} {j : JobRecord}
    (h : s.slotOf number = some slot) (hj : s.job slot = some j) :
    s.namedJob p number = if j.seenBy p then .ok (slot, j) else .error .notPermitted := by
  simp only [State.namedJob, h, hj]

theorem seenBy_service_uplink {j : JobRecord} (h : j.origin = .uplink) : j.seenBy .service = false := by
  rw [JobRecord.seenBy, h]
  rfl

/-- A job is seen at the uplink port, and a job of the service port at both ports that may name it. -/
theorem seenBy_permitted {j : JobRecord} {p : Port} (crew : p = .service ∨ p = .uplink)
    (h : p = .uplink ∨ j.origin = .service) : j.seenBy p = true := by
  rcases h with rfl | ho
  · rfl
  · rcases crew with rfl | rfl
    · rw [JobRecord.seenBy, ho]
      rfl
    · rfl

theorem isOpen_iff (j : JobRecord) : j.isOpen = true ↔ j.state ≠ .ended := by
  unfold JobRecord.isOpen
  cases j.state <;> simp

theorem crewPort_of_allowed {kind : ReqKind} {p : Port} (hk : kind = .retireJob ∨ kind = .abortJob)
    (h : kind.allowedAt p = true) : p = .service ∨ p = .uplink := by
  rcases hk with rfl | rfl <;> cases p <;> first | exact .inl rfl | exact .inr rfl | cases h

end Sys2Proof.Machine.VanLaws
end

section
/-! PROOFS. RETIRE_JOB and ABORT_JOB settled (R124, R125, R127). -/

namespace Sys2Proof.Machine.VanLaws

open Sys2Proof.Machine.Laws Sys2Proof.Machine.RideLaws

/-! ## Requests that name a job -/

/-- The owner of a request that names a job: it is refused where the port sees no job of the number, and does its work on
the one it finds otherwise. -/
def namedOwner (p : Port) (work : SlotNo → JobRecord → State → Handled) (number : Nat) (s : State) : Handled :=
  orRefuse (s.namedJob p number) s (fun x => work x.1 x.2 s)

/-- What RETIRE_JOB makes of the job it names (R127). -/
def retireWork (slot : SlotNo) (j : JobRecord) (s : State) : Handled :=
  if j.isOpen then refuse .jobOpen s else accept .nothing (s.setJob slot none)

/-- What ABORT_JOB makes of the job it names (R124). -/
def abortWork (slot : SlotNo) (j : JobRecord) (s : State) : Handled :=
  if j.isOpen then
    accept (.aborted { j.conditions with aborted := true } j.moved.length j.openDocks.length)
      (s.cutJob slot j (fun c => { c with aborted := true }))
  else refuse .jobIllegal s

theorem ownRetireJob_named (p : Port) : ownRetireJob p = namedOwner p retireWork := rfl

theorem ownAbortJob_named (p : Port) : ownAbortJob p = namedOwner p abortWork := rfl

section Named

variable {s : State} {kind : ReqKind} {p : Port} {bytes : List Byte} {number : Nat} {slot : SlotNo} {j : JobRecord}

theorem named_unknown (h : s.takes kind p bytes readJob number) (work : SlotNo → JobRecord → State → Handled)
    (noSlot : s.slotOf number = none) :
    (serve kind p bytes readJob (namedOwner p work) s).answered p kind.code bytes (.refuse .jobUnknown none)
      ∧ (serve kind p bytes readJob (namedOwner p work) s).unchangedBy s p :=
  serve_refused h (by rw [namedOwner, namedJob_unknown (s := s.endRequest p _) noSlot, orRefuse])

/-- A job of the uplink port is not the service port's to end or retire. -/
theorem named_hidden (h : s.takes kind .service bytes readJob number) (work : SlotNo → JobRecord → State → Handled)
    (found : s.slotOf number = some slot) (hj : s.job slot = some j) (origin : j.origin = .uplink) :
    (serve kind .service bytes readJob (namedOwner .service work) s).answered .service kind.code bytes
        (.refuse .notPermitted none)
      ∧ (serve kind .service bytes readJob (namedOwner .service work) s).unchangedBy s .service := by
  refine serve_refused h ?_
  rw [namedOwner, namedJob_some (s := s.endRequest .service _) found hj, seenBy_service_uplink origin,
    if_neg Bool.false_ne_true, orRefuse]

/-- The work is done on the job of the number where the port sees it. -/
theorem named_works (h : s.takes kind p bytes readJob number) (hk : kind = .retireJob ∨ kind = .abortJob)
    (work : SlotNo → JobRecord → State → Handled) (found : s.slotOf number = some slot) (hj : s.job slot = some j)
    (seen : p = .uplink ∨ j.origin = .service) (n : Nat) :
    namedOwner p work number (s.endRequest p n) = work slot j (s.endRequest p n) := by
  have permitted := seenBy_permitted (crewPort_of_allowed hk (takes_allowed h)) seen
  rw [namedOwner, namedJob_some (s := s.endRequest p n) found hj, permitted, if_pos rfl, orRefuse]

end Named

theorem retireWork_open {j : JobRecord} (h : j.state ≠ .ended) (slot : SlotNo) (s : State) :
    retireWork slot j s = refuse .jobOpen s := if_pos ((isOpen_iff j).2 h)

theorem retireWork_ended {j : JobRecord} (h : j.state = .ended) (slot : SlotNo) (s : State) :
    retireWork slot j s = accept .nothing (s.setJob slot none) := if_neg (fun q => (isOpen_iff j).1 q h)

theorem abortWork_ended {j : JobRecord} (h : j.state = .ended) (slot : SlotNo) (s : State) :
    abortWork slot j s = refuse .jobIllegal s := if_neg (fun q => (isOpen_iff j).1 q h)

theorem abortWork_open {j : JobRecord} (h : j.state ≠ .ended) (slot : SlotNo) (s : State) :
    abortWork slot j s
      = accept (.aborted { j.conditions with aborted := true } j.moved.length j.openDocks.length)
          (s.cutJob slot j (fun c => { c with aborted := true })) := if_pos ((isOpen_iff j).2 h)

/-- Settles O35: both requests judge the job they name alike; a retire writes its slot, and an abort cuts the job. -/
theorem retireAndAbort : Obligations.RetireAndAbort := by
  unfold Obligations.RetireAndAbort
  rintro s p bytes number i first (⟨rfl, rfl, h⟩ | ⟨rfl, rfl, h⟩)
  · refine ⟨fun noSlot => ⟨_, rfl, named_unknown h retireWork noSlot⟩, fun slot j found hj => ⟨?_, fun seen => ?_⟩⟩
    · rintro rfl origin
      exact ⟨_, rfl, named_hidden h retireWork found hj origin⟩
    · have own := named_works h (.inl rfl) retireWork found hj seen (bytes.length + 1)
      refine ⟨fun _ isOpen => ?_, fun _ ended => ?_, nofun, nofun⟩
      · exact ⟨_, rfl, serve_refused h (own.trans (retireWork_open isOpen ..))⟩
      · obtain ⟨answered, ends, kept, -⟩ :=
          serve_accepted h rfl (own.trans (retireWork_ended ended ..)) (.of_ports rfl)
        exact ⟨_, rfl, answered, kept, endsAs_congr ends rfl⟩
  · refine ⟨fun noSlot => ⟨_, rfl, named_unknown h abortWork noSlot⟩, fun slot j found hj => ⟨?_, fun seen => ?_⟩⟩
    · rintro rfl origin
      exact ⟨_, rfl, named_hidden h abortWork found hj origin⟩
    · have own := named_works h (.inr rfl) abortWork found hj seen (bytes.length + 1)
      refine ⟨nofun, nofun, fun _ ended => ?_, fun _ isOpen => ?_⟩
      · exact ⟨_, rfl, serve_refused h (own.trans (abortWork_ended ended ..))⟩
      · let s0 := s.endRequest p (bytes.length + 1)
        obtain ⟨answered, ends, -, notified⟩ :=
          serve_accepted h rfl (own.trans (abortWork_open isOpen ..)) (cutJob_grows ..).follow
        obtain ⟨cuts, docks, jobs⟩ := cutJob_cuts (s := s0) (endsAs_vans ends) (endsAs_records ends)
          (endsAs_reserved ends) ends.2 notified
        have parts := cutJob_parts s0 slot j (fun c => { c with aborted := true })
        refine ⟨_, rfl, answered, cuts, docks, jobs, ?_, ?_, ?_, ?_⟩
        · exact (endsAs_cards ends).trans (congrArg State.cards parts :)
        · exact (endsAs_faults ends).trans (congrArg State.faults parts :)
        · exact (endsAs_rides ends).trans (congrArg State.rides parts :)
        · exact (endsAs_fares ends).trans (congrArg State.fares parts :)

end Sys2Proof.Machine.VanLaws
end

section
/-! PROOFS. START_JOB: the walk and the claim by arithmetic, the judgements of a dock, the checks in their order, and the
number taken (R103, R105, R106, R108, R110 to R112). -/

namespace Sys2Proof.Machine.VanLaws

open Sys2Proof.Machine.Laws Sys2Proof.Machine.RideLaws

/-! ## The walk and the claim by arithmetic (R105, R106) -/

section Arithmetic

variable {c : StationConfig} {start : DockNo} {front back : List Nat} {size : Nat}

/-- WRAP UP counts round the segment from the start dock. -/
theorem walk_wrap_up_mod (hs : c.segmentsSound) (he : c.segments = front ++ size :: back) (h1 : front.sum ≤ start.val)
    (h2 : start.val < front.sum + size) :
    (c.walk start .up .wrap).map Fin.val
      = (List.range size).map (fun k => front.sum + (start.val - front.sum + k) % size) := by
  rw [walk_wrap_up hs he h1 h2, range_turn (by omega)]
  congr 2 <;> omega

/-- WRAP DOWN counts round it downwards. -/
theorem walk_wrap_down_mod (hs : c.segmentsSound) (he : c.segments = front ++ size :: back) (h1 : front.sum ≤ start.val)
    (h2 : start.val < front.sum + size) :
    (c.walk start .down .wrap).map Fin.val
      = (List.range size).map (fun k => front.sum + (start.val - front.sum + size - k) % size) := by
  rw [walk_wrap_down hs he h1 h2, range_turn_down (by omega)]
  congr 3 <;> omega

theorem walk_cross_up_range (start : DockNo) (hs : c.segmentsSound) :
    (c.walk start .up .cross).map Fin.val
      = (List.range (c.segments.sum - start.val)).map (fun k => start.val + k) := by
  rw [walk_cross_up start hs, List.range'_eq_map_range]

theorem walk_cross_down_range (h : start.val < c.segments.sum) :
    (c.walk start .down .cross).map Fin.val = (List.range (start.val + 1)).map (fun k => start.val - k) := by
  rw [walk_cross_down h, List.reverse_range']
  simp

/-- The segments a walk claims, the start segment being the one after `front`. -/
theorem claimed_iff (he : c.segments = front ++ size :: back) (h1 : front.sum ≤ start.val)
    (h2 : start.val < front.sum + size) (k : Nat) :
    (∀ direction, c.claimed start direction .wrap k = true ↔ k = front.length)
      ∧ (c.claimed start .up .cross k = true ↔ front.length ≤ k ∧ k < c.segments.length)
      ∧ (c.claimed start .down .cross k = true ↔ k ≤ front.length) := by
  simp [StationConfig.claimed, segmentOf_front he h1 h2]

end Arithmetic

/-- The claim of a walk as a set holds the segments that the walk claims. -/
theorem claim_getLsbD (c : StationConfig) (start : DockNo) (direction : Direction) (walk : Walk) (k : Fin 8) :
    (c.claim start direction walk).getLsbD k.val = c.claimed start direction walk k.val := by
  have gathered : ∀ (l : List Nat) (set : SegmentSet),
      (l.foldl (fun set i => if c.claimed start direction walk i then set ||| segmentBit i else set) set).getLsbD k.val
        = (set.getLsbD k.val || (decide (k.val ∈ l) && c.claimed start direction walk k.val)) := by
    intro l
    induction l with
    | nil => simp
    | cons i is ih =>
      intro set
      have bit : (segmentBit i).getLsbD k.val = decide (k.val = i) := by
        have := k.isLt
        rw [segmentBit, BitVec.getLsbD_twoPow, Bool.eq_iff_iff]
        simp only [Bool.and_eq_true, decide_eq_true_eq]
        omega
      rw [List.foldl_cons, ih]
      by_cases e : k.val = i
      · subst e
        cases c.claimed start direction walk k.val
        · simp
        · rw [if_pos rfl, BitVec.getLsbD_or, bit]
          simp
      · have later : decide (k.val ∈ i :: is) = decide (k.val ∈ is) := by simp [e]
        rw [later]
        split
        · rw [BitVec.getLsbD_or, bit, decide_eq_false e, Bool.or_false]
        · rfl
  rw [StationConfig.claim, gathered]
  simp

/-! ## The judgements of a dock (R110 to R112) -/

/-- A bike that a SWEEP takes and at which a COLLECT may stop: verified, and quarantined or token-held. -/
def unfit (s : State) (d : DockNo) : Prop :=
  ∃ b, (s.dock d).state = .docked b ∧ (s.dock d).verified = true ∧ (s.isQuarantined b.bike = true ∨ b.tokenHeld = true)

theorem unfit_docked {s : State} {d : DockNo} {b : DockedBike} (h : (s.dock d).state = .docked b) :
    unfit s d ↔ (s.dock d).verified = true ∧ (s.isQuarantined b.bike = true ∨ b.tokenHeld = true) := by
  simp [unfit, h]

theorem judgeCollect_mark (s : State) (handling : FaultHandling) (d : DockNo) :
    s.judgeCollect handling d = .mark ↔ s.available d = true := by
  unfold State.judgeCollect
  cases hst : (s.dock d).state
  case docked b =>
    dsimp only
    cases s.available d <;> cases (s.dock d).verified <;> cases handling <;> simp
  all_goals simp [State.available, hst]

theorem judgeCollect_stop (s : State) (handling : FaultHandling) (d : DockNo) :
    s.judgeCollect handling d = .stop ↔ handling = .stop ∧ unfit s d := by
  unfold State.judgeCollect
  cases hst : (s.dock d).state
  case docked b =>
    simp only [unfit_docked hst, State.available, hst]
    cases (s.dock d).verified <;> cases b.tokenHeld <;> cases s.isQuarantined b.bike <;> cases handling <;> simp
  all_goals simp [unfit, hst]

theorem judgeSweep_mark (s : State) (d : DockNo) : s.judgeSweep d = .mark ↔ unfit s d := by
  unfold State.judgeSweep
  cases hst : (s.dock d).state
  case docked b =>
    dsimp only
    rw [unfit_docked hst]
    cases (s.dock d).verified <;> cases b.tokenHeld <;> cases s.isQuarantined b.bike <;> simp
  all_goals simp [unfit, hst]

theorem judgeSweep_passes (s : State) (d : DockNo) : s.judgeSweep d ≠ .stop := by
  unfold State.judgeSweep
  split
  · split <;> simp
  all_goals simp

theorem judgeDeliver_mark (s : State) (d : DockNo) :
    s.judgeDeliver d = .mark ↔ (s.dock d).state = .empty ∧ (s.dock d).verified = true := by
  unfold State.judgeDeliver State.deliverable
  cases (s.dock d).state <;> cases (s.dock d).verified <;> simp [DockState.isEmpty]

theorem judgeDeliver_passes (s : State) (d : DockNo) : s.judgeDeliver d ≠ .stop := by
  unfold State.judgeDeliver
  split <;> simp

theorem handling_stop (handling : Option FaultHandling) : handling.getD .skip = .stop ↔ handling = some .stop := by
  cases handling <;> simp

/-! ## The checks of R108 in their order -/

/-- The checks of R108 as the statement lists them. -/
def startChecks (s : State) (req : StartReq) : List (Bool × RefusalReason) :=
  let c := s.time.config
  let sequence := c.walk req.start req.direction req.walk
  [(decide (c.segments.sum ≤ req.start.val) || (decide (req.kind = .collect) != req.faultHandling.isSome)
      || (decide (req.kind ≠ .audit) != req.requested.isSome) || (decide (req.kind = .audit) != req.expected.isSome)
      || req.expected.any (fun l => l.isEmpty || decide (sequence.length < l.length)), .jobIllegal),
   ((List.finRange 4).all (fun i => (s.job i).isSome), .tableFull),
   ((List.finRange 8).any (fun k => c.claimed req.start req.direction req.walk k.val && (s.vans.claims[k]).isSome),
      .segmentBusy),
   ((decide (s.journal.mode = .reserve) && decide (req.kind ≠ .audit)) || decide (s.freeSlots < 1 + (req.count + 7) / 8),
      .journalReserve),
   ((decide (req.kind = .collect) || decide (req.kind = .sweep))
      && decide (24 ≤ s.rail.queue.length + s.rail.opens.length), .railBusy)]

theorem jobIllegal_eq (s : State) (req : StartReq) :
    s.jobIllegal req
      = (decide (s.time.config.segments.sum ≤ req.start.val) || (decide (req.kind = .collect) != req.faultHandling.isSome)
          || (decide (req.kind ≠ .audit) != req.requested.isSome) || (decide (req.kind = .audit) != req.expected.isSome)
          || req.expected.any (fun l => l.isEmpty
              || decide ((s.time.config.walk req.start req.direction req.walk).length < l.length))) := by
  unfold State.jobIllegal StationConfig.dockCount
  dsimp only
  cases req.kind <;> cases req.faultHandling <;> cases req.requested <;> cases req.expected <;> simp

theorem freeSlot_isNone (s : State) : s.freeSlot.isNone = (List.finRange 4).all (fun i => (s.job i).isSome) := by
  unfold State.freeSlot allSlots
  rw [Bool.eq_iff_iff, Option.isNone_iff_eq_none, List.find?_eq_none, List.all_eq_true]
  simp [Option.isSome_iff_ne_none]

theorem overlaps_claim (v : Vans) (c : StationConfig) (start : DockNo) (direction : Direction) (walk : Walk) :
    v.overlaps (c.claim start direction walk)
      = (List.finRange 8).any (fun k => c.claimed start direction walk k.val && (v.claims[k]).isSome) := by
  simp only [Vans.overlaps, claim_getLsbD]

/-- The slot an accepted job takes. -/
def slotOrFull (s : State) : Except RefusalReason SlotNo :=
  match s.freeSlot with
  | some slot => .ok slot
  | none => .error .tableFull

theorem judgeStart_guarded (s : State) (req : StartReq) :
    s.judgeStart req = guarded (startChecks s req) (slotOrFull s) := by
  have noRoom : (!s.rail.hasRoom) = decide (24 ≤ s.rail.queue.length + s.rail.opens.length) := by
    rw [Bool.eq_iff_iff, Bool.not_eq_true', ← Bool.not_eq_true, hasRoom_iff, decide_eq_true_eq, Nat.not_lt]
  unfold State.judgeStart startChecks slotOrFull
  dsimp only
  rw [guarded_cons, guarded_cons, guarded_cons, guarded_cons, guarded_cons, guarded_nil, ← jobIllegal_eq,
    ← freeSlot_isNone, ← overlaps_claim, ← noRoom]
  simp only [Bool.or_eq_true, Bool.and_eq_true, decide_eq_true_eq]
  cases s.freeSlot <;> rfl

/-- The first slot without a job is the one taken. -/
theorem freeSlot_first {s : State} {slot : SlotNo} (free : s.job slot = none) (first : ∀ k, k < slot → s.job k ≠ none) :
    s.freeSlot = some slot := by
  unfold State.freeSlot allSlots
  rw [List.find?_eq_some_iff_getElem]
  refine ⟨by rw [free]; rfl, slot.val, by simp, by simp, fun i hi => ?_⟩
  have taken := first ⟨i, by omega⟩ hi
  simpa [Option.isSome_iff_ne_none] using taken

/-! ## The number an accepted job takes (R103) -/

theorem numberHeld_iff (s : State) (n : Nat) :
    s.numberHeld n = true ↔ ∃ i x, s.job i = some x ∧ x.number = n := by
  constructor
  · intro h
    obtain ⟨slot, hslot⟩ := Option.isSome_iff_exists.1 h
    exact ⟨slot, slotOf_job hslot⟩
  · rintro ⟨i, x, hx, rfl⟩
    unfold State.numberHeld State.slotOf
    rw [List.find?_isSome]
    exact ⟨i, mem_allSlots i, by simp [hx]⟩

/-- The numbers counted up from one, each 1 after 255. -/
def counted (n : Nat) : Nat → Nat
  | 0 => n
  | k + 1 => nextJobAfter (counted n k)

theorem counted_step (n k : Nat) : counted (nextJobAfter n) k = counted n (k + 1) := by
  induction k with
  | zero => rfl
  | succ k ih => exact congrArg nextJobAfter ih

/-- A count that finds every number held has found the first `fuel` of them held. -/
theorem freeNumber_held {s : State} {fuel n : Nat} (h : s.numberHeld (s.freeNumber fuel n) = true) :
    ∀ k, k < fuel → s.numberHeld (counted n k) = true := by
  induction fuel generalizing n with
  | zero => exact fun k hk => absurd hk (Nat.not_lt_zero k)
  | succ fuel ih =>
    rw [State.freeNumber] at h
    split at h
    · next held =>
      intro k hk
      cases k with
      | zero => exact held
      | succ k => exact counted_step n k ▸ ih h k (Nat.lt_of_succ_lt_succ hk)
    · next free => exact absurd h free

/-- The count by arithmetic: up to 255, and from 1 again. -/
theorem counted_eq (n : Nat) {k : Nat} (h : k < 255) :
    counted n k = if k = 0 ∨ n + k ≤ 255 then n + k else if 255 ≤ n then k else n + k - 255 := by
  induction k with
  | zero => rfl
  | succ k ih =>
    have before := ih (by omega)
    simp only [counted, nextJobAfter, Nat.add_one_ne_zero, false_or]
    generalize counted n k = c at before
    split_ifs at before <;> split_ifs <;> omega

/-- Four numbers counted up are different. -/
theorem counted_inj (n : Nat) : Function.Injective (fun k : Fin 4 => counted n k.val) := by
  intro a b h
  have ha := a.isLt
  have hb := b.isLt
  dsimp only at h
  rw [counted_eq n (by omega), counted_eq n (by omega)] at h
  apply Fin.ext
  split_ifs at h <;> omega

/-- With a slot free, the number taken is held by no slot: four slots would have to hold the four numbers counted. -/
theorem takenNumber_free {s : State} {slot : SlotNo} (free : s.job slot = none) {k : SlotNo} {x : JobRecord}
    (hx : s.job k = some x) : x.number ≠ s.takenNumber := by
  intro same
  have held := freeNumber_held ((numberHeld_iff s s.takenNumber).2 ⟨k, x, hx, same⟩)
  have holder : ∀ i : Fin 4, ∃ m : SlotNo, ∃ y, s.job m = some y ∧ y.number = counted s.vans.nextJob i.val :=
    fun i => (numberHeld_iff ..).1 (held i.val i.isLt)
  choose heldBy record stands numbered using holder
  have inj : Function.Injective heldBy := by
    intro a b h
    apply counted_inj s.vans.nextJob
    have : record a = record b := Option.some.inj ((stands a).symm.trans (h ▸ stands b))
    exact (numbered a).symm.trans ((congrArg JobRecord.number this).trans (numbered b))
  obtain ⟨i, hi⟩ := (Finite.injective_iff_surjective.1 inj) slot
  have := stands i
  rw [hi, free] at this
  cases this

end Sys2Proof.Machine.VanLaws
end

section
/-! PROOFS. START_JOB: the walk of an accepted job, its record, and what the walk leaves of the station (R109 to R114,
R125). -/

namespace Sys2Proof.Machine.VanLaws

open Sys2Proof.Machine.Laws Sys2Proof.Machine.RideLaws

/-! ## What a walk finds (R110 to R113) -/

/-- The sequence of a requested walk. -/
def sequenceOf (s : State) (req : StartReq) : List DockNo := s.time.config.walk req.start req.direction req.walk

/-- The docks a walk judges to be marked, before the first that stops it. -/
def found (s : State) (req : StartReq) : List DockNo :=
  ((sequenceOf s req).takeWhile (fun d => decide (s.judgeDock req.kind req.faultHandling d ≠ .stop))).filter
    (fun d => decide (s.judgeDock req.kind req.faultHandling d = .mark))

/-- The docks a walk marks. -/
def marks (s : State) (req : StartReq) : List DockNo := (found s req).take req.count

/-- The first dock that stops a walk. -/
def stopOf (s : State) (req : StartReq) : Option DockNo :=
  (sequenceOf s req).find? (fun d => decide (s.judgeDock req.kind req.faultHandling d = .stop))

/-- How a walk ends. -/
def endOf (s : State) (req : StartReq) : WalkEnd :=
  if req.count ≤ (found s req).length then .full
  else match stopOf s req with
    | some d => .stopped d
    | none => .ranOut

theorem walkMarks_eq (s : State) (req : StartReq) :
    walkMarks (s.judgeDock req.kind req.faultHandling) req.count (sequenceOf s req) = (marks s req, endOf s req) :=
  Prod.ext (walkMarks_marks ..) (walkMarks_end ..)

theorem endOf_full {s : State} {req : StartReq} (h : req.count ≤ (found s req).length) : endOf s req = .full := if_pos h

theorem endOf_stopped {s : State} {req : StartReq} {d : DockNo} (h : (found s req).length < req.count)
    (stop : stopOf s req = some d) : endOf s req = .stopped d := by
  rw [endOf, if_neg (Nat.not_le_of_lt h), stop]

theorem endOf_ranOut {s : State} {req : StartReq} (h : (found s req).length < req.count) (stop : stopOf s req = none) :
    endOf s req = .ranOut := by
  rw [endOf, if_neg (Nat.not_le_of_lt h), stop]

/-! ## The record of an accepted job -/

/-- The record after a marking walk (R113). -/
def walkedJob (s : State) (req : StartReq) (j : JobRecord) : JobRecord :=
  { j with
    marked := (marks s req).map (fun d => ⟨d, .open⟩)
    position := (endOf s req).position req.start (marks s req) (sequenceOf s req)
    conditions := (endOf s req).conditions req.walk }

/-- The record after its walk, which an AUDIT makes without marking (R114). -/
def ranJob (s : State) (req : StartReq) (j : JobRecord) : JobRecord :=
  if req.kind = .audit then s.audit (req.expected.getD []) (sequenceOf s req) j else walkedJob s req j

/-- A job that its walk ends at once: an AUDIT, or one that marked nothing (R109). -/
abbrev endsAtOnce (s : State) (req : StartReq) : Prop := req.kind = .audit ∨ marks s req = []

/-- The record of a job that marked a dock: FILLING for a DELIVER and OPEN otherwise, with its window (R109). -/
def openedJob (s : State) (req : StartReq) (j : JobRecord) : JobRecord :=
  { walkedJob s req j with
    state := if req.kind = .deliver then .filling else .open
    window := some s.time.config.vanWindow }

/-- The record that START_JOB leaves. -/
def startedJob (s : State) (req : StartReq) (j : JobRecord) : JobRecord :=
  if endsAtOnce s req then { ranJob s req j with state := .ended, window := none } else openedJob s req j

/-- Two records of a job that differ at most in what its walk and its time write. -/
structure SameRequest (a b : JobRecord) : Prop where
  number : a.number = b.number
  origin : a.origin = b.origin
  kind : a.kind = b.kind
  requested : a.requested = b.requested
  start : a.start = b.start
  direction : a.direction = b.direction
  walk : a.walk = b.walk
  faultHandling : a.faultHandling = b.faultHandling
  expected : a.expected = b.expected
  claimed : a.claimed = b.claimed
  batchFetched : a.batchFetched = b.batchFetched

theorem ranJob_same (s : State) (req : StartReq) (j : JobRecord) : SameRequest (ranJob s req j) j := by
  unfold ranJob
  split <;> exact ⟨rfl, rfl, rfl, rfl, rfl, rfl, rfl, rfl, rfl, rfl, rfl⟩

theorem startedJob_same (s : State) (req : StartReq) (j : JobRecord) : SameRequest (startedJob s req j) j := by
  unfold startedJob ranJob
  split_ifs <;> exact ⟨rfl, rfl, rfl, rfl, rfl, rfl, rfl, rfl, rfl, rfl, rfl⟩

theorem startedJob_ended {s : State} {req : StartReq} (h : endsAtOnce s req) (j : JobRecord) :
    startedJob s req j = { ranJob s req j with state := .ended, window := none } := if_pos h

theorem startedJob_opened {s : State} {req : StartReq} (h : ¬ endsAtOnce s req) (j : JobRecord) :
    startedJob s req j = openedJob s req j := if_neg h

/-! ## The walk of an accepted job -/

/-- A COLLECT or a SWEEP queues its batch; a DELIVER opens no dock (R109). -/
def queueBatch (req : StartReq) (number : Nat) (docks : List DockNo) (s : State) : State :=
  if req.kind = .deliver then s else s.pushCommand (.batchUnlock number docks)

theorem queueBatch_eq (req : StartReq) (number : Nat) (docks : List DockNo) (s : State) :
    queueBatch req number docks s
      = { s with rail := { s.rail with queue := (queueBatch req number docks s).rail.queue }
                 ports := (queueBatch req number docks s).ports } := by
  unfold queueBatch
  split <;> rfl

theorem queueBatch_grows (req : StartReq) (number : Nat) (docks : List DockNo) (s : State) :
    PortsGrow (queueBatch req number docks s) s := by
  unfold queueBatch
  split
  · exact .refl s
  · exact pushCommand_grows ..

theorem startWalk_ends {s : State} {req : StartReq} (h : endsAtOnce s req) (slot : SlotNo) (j : JobRecord) :
    s.startWalk slot req j = s.endJob slot (ranJob s req j) := by
  have walked := walkMarks_eq s req
  unfold sequenceOf at walked
  unfold State.startWalk ranJob
  dsimp only
  rw [walked]
  rcases h with audit | nothing
  · rw [audit]
    rfl
  · have empty : (marks s req).isEmpty = true := by rw [nothing]; rfl
    rw [if_pos empty]
    cases req.kind <;> rfl

/-- A job that marked a dock: its docks are marked, its record stands open, and its batch is queued. -/
theorem startWalk_opens {s : State} {req : StartReq} (h : ¬ endsAtOnce s req) (slot : SlotNo) (j : JobRecord) :
    s.startWalk slot req j
      = queueBatch req j.number (marks s req)
          ((rewriteDocks (marked j.number) (marks s req) s).setJob slot (some (openedJob s req j))) := by
  have walked := walkMarks_eq s req
  unfold sequenceOf at walked
  have nonempty : (marks s req).isEmpty ≠ true := fun e => h (.inr (List.isEmpty_iff.1 e))
  unfold State.startWalk openedJob queueBatch
  dsimp only
  rw [walked, if_neg nonempty, markDocks_eq]
  cases hk : req.kind
  case audit => exact absurd (.inl hk) h
  all_goals rfl

theorem startWalk_job_self (s : State) (slot : SlotNo) (req : StartReq) (j : JobRecord) :
    (s.startWalk slot req j).job slot = some (startedJob s req j) := by
  by_cases h : endsAtOnce s req
  · rw [startWalk_ends h, endJob_job_self, startedJob_ended h]
  · rw [startWalk_opens h, queueBatch_eq, startedJob_opened h]
    exact setJob_job_self ..

theorem startWalk_job_ne (s : State) {slot k : SlotNo} (req : StartReq) (j : JobRecord) (hk : k ≠ slot) :
    (s.startWalk slot req j).job k = s.job k := by
  by_cases h : endsAtOnce s req
  · rw [startWalk_ends h, endJob_job_ne _ _ hk]
  · rw [startWalk_opens h, queueBatch_eq, rewriteDocks_eq]
    exact setJob_job_ne _ _ hk

/-- The walk writes docks and the queue, the jobs, the journal and the port units alone. -/
theorem startWalk_parts (s : State) (slot : SlotNo) (req : StartReq) (j : JobRecord) :
    let u := s.startWalk slot req j
    u = { s with rail := u.rail, vans := u.vans, journal := u.journal, ports := u.ports }
      ∧ u.vans.nextJob = s.vans.nextJob ∧ PortsGrow u s := by
  intro u
  by_cases h : endsAtOnce s req
  · have e : u = _ := startWalk_ends h slot j
    rw [e]
    exact ⟨rfl, rfl, endJob_grows ..⟩
  · have e : u = _ := startWalk_opens h slot j
    have rewritten := rewriteDocks_eq (marked j.number) (marks s req) s
    rw [e]
    refine ⟨?_, ?_, (queueBatch_grows ..).trans (.of_ports ?_)⟩
    · rw [queueBatch_eq, rewritten]
      rfl
    · rw [queueBatch_eq, rewritten]
      rfl
    · rw [rewritten]
      rfl

end Sys2Proof.Machine.VanLaws
end

section
/-! PROOFS. START_JOB: the station an accepted job leaves, and the statement settled (R103, R106, R109 to R114, R125). -/

namespace Sys2Proof.Machine.VanLaws

open Sys2Proof.Machine.Laws Sys2Proof.Machine.RideLaws

/-! ## The station before the walk (R103, R106, R109) -/

/-- The claim of a requested job. -/
def claimOf (s : State) (req : StartReq) : SegmentSet := s.time.config.claim req.start req.direction req.walk

/-- The record of a requested job before its walk. -/
def filledJob (s : State) (origin : CrewPort) (req : StartReq) : JobRecord :=
  req.fill s.takenNumber origin (claimOf s req)

/-- The station with the number taken, the claim entered and the slots of the JOB_END reserved. -/
def enteredStation (s : State) (req : StartReq) : State :=
  (State.enterClaim s.takenNumber (claimOf s req)
    { s with vans := { s.vans with nextJob := nextJobAfter s.takenNumber } }).reserve (reservationSize req.count)

theorem startJob_eq (s : State) (slot : SlotNo) (origin : CrewPort) (req : StartReq) :
    s.startJob slot origin req = (enteredStation s req).startWalk slot req (filledJob s origin req) := rfl

theorem enteredStation_claims (s : State) (req : StartReq) (k : Fin 8) :
    (enteredStation s req).vans.claims[k]
      = if s.time.config.claimed req.start req.direction req.walk k.val = true then some s.takenNumber
        else s.vans.claims[k] := by
  rw [← claim_getLsbD]
  exact enterClaim_claims _ s.takenNumber (claimOf s req) k

/-- A job that leaves the claims it entered on free segments gives the map back, but for its own number. -/
theorem enteredStation_left {s : State} {req : StartReq} {k : Fin 8}
    (free : s.time.config.claimed req.start req.direction req.walk k.val = true → s.vans.claims[k] = none)
    (other : s.vans.claims[k] ≠ some s.takenNumber) :
    ((enteredStation s req).leaveClaim s.takenNumber).vans.claims[k] = s.vans.claims[k] := by
  rw [leaveClaim_claims, enteredStation_claims]
  by_cases h : s.time.config.claimed req.start req.direction req.walk k.val = true
  · rw [if_pos h, if_pos rfl, free h]
  · rw [if_neg h, if_neg other]

/-! ## The record that a walk leaves (R113, R114) -/

/-- What the record of a marking job has from its walk. -/
theorem startedJob_walked {s : State} {req : StartReq} (h : req.kind ≠ .audit) (j : JobRecord) :
    (startedJob s req j).position = (endOf s req).position req.start (marks s req) (sequenceOf s req)
      ∧ (startedJob s req j).conditions = (endOf s req).conditions req.walk
      ∧ (startedJob s req j).marked = (marks s req).map (fun d => ⟨d, .open⟩)
      ∧ (startedJob s req j).moved = j.moved ∧ (startedJob s req j).mismatch = j.mismatch := by
  unfold startedJob
  rw [ranJob, if_neg h]
  split <;> exact ⟨rfl, rfl, rfl, rfl, rfl⟩

/-- The record of an AUDIT. -/
theorem startedJob_audit {s : State} {req : StartReq} (h : req.kind = .audit) (j : JobRecord) :
    startedJob s req j
      = { s.audit (req.expected.getD []) (sequenceOf s req) j with state := .ended, window := none } := by
  rw [startedJob_ended (.inl h), ranJob, if_pos h]

/-! ## The station after the walk -/

/-- What START_JOB leaves of the station where a job ends at once (R109, R125). -/
theorem startJob_ends {s : State} {req : StartReq} (h : endsAtOnce s req) (slot : SlotNo) (origin : CrewPort) :
    s.startJob slot origin req
      = (enteredStation s req).endJob slot (ranJob (enteredStation s req) req (filledJob s origin req)) :=
  startWalk_ends (s := enteredStation s req) h ..

theorem startJob_opens {s : State} {req : StartReq} (h : ¬ endsAtOnce s req) (slot : SlotNo) (origin : CrewPort) :
    s.startJob slot origin req
      = queueBatch req s.takenNumber (marks s req)
          ((rewriteDocks (marked s.takenNumber) (marks s req) (enteredStation s req)).setJob slot
            (some (openedJob (enteredStation s req) req (filledJob s origin req)))) :=
  startWalk_opens (s := enteredStation s req) h ..

/-- The docks, the journal and the claims of a job that marked a dock. -/
theorem startJob_opened {s : State} {req : StartReq} (h : ¬ endsAtOnce s req) (slot : SlotNo) (origin : CrewPort) :
    let u := s.startJob slot origin req
    (∀ d, u.dock d = if d ∈ marks s req then marked s.takenNumber (s.dock d) else s.dock d)
      ∧ u.journal = { s.journal with reserved := s.journal.reserved + reservationSize req.count }
      ∧ u.vans.claims = (enteredStation s req).vans.claims
      ∧ (req.kind ≠ .deliver → u.rail.queue = s.rail.queue ++ [.batchUnlock s.takenNumber (marks s req)]
          ∧ u.notified .rail .commandWaiting) := by
  intro u
  have written : u = _ := startJob_opens h slot origin
  have batch := queueBatch_eq req s.takenNumber (marks s req)
    ((rewriteDocks (marked s.takenNumber) (marks s req) (enteredStation s req)).setJob slot
      (some (openedJob (enteredStation s req) req (filledJob s origin req))))
  have rewritten := rewriteDocks_eq (marked s.takenNumber) (marks s req) (enteredStation s req)
  refine ⟨fun d => ?_, ?_, ?_, fun kind => ?_⟩
  · rw [written, batch]
    exact rewriteDocks_dock (marked_marked _) (marks s req) (enteredStation s req) d
  · rw [written, batch, rewritten]
    rfl
  · rw [written, batch, rewritten]
    rfl
  · rw [written, queueBatch, if_neg kind]
    refine ⟨?_, pushCommand_notified ..⟩
    rw [rewritten]
    rfl

/-- The journal, the docks and the claims of a job that ended at once. -/
theorem startJob_ended {s : State} {req : StartReq} (h : endsAtOnce s req) (slot : SlotNo) (origin : CrewPort) :
    let u := s.startJob slot origin req
    u.rail = s.rail ∧ u.journal.reserved = s.journal.reserved
      ∧ u.journal.records = s.journal.records ++ [⟨s.journal.nextSeq, s.stamp,
          .jobEnd (startedJob (enteredStation s req) req (filledJob s origin req)).endRecord⟩]
      ∧ u.vans.claims = ((enteredStation s req).leaveClaim s.takenNumber).vans.claims
      ∧ u.notified origin.port .jobEnded := by
  intro u
  have written : u = _ := startJob_ends h slot origin
  have record : (startedJob (enteredStation s req) req (filledJob s origin req)).endRecord
      = (ranJob (enteredStation s req) req (filledJob s origin req)).endRecord := by
    rw [startedJob_ended (s := enteredStation s req) h]
    rfl
  have same := ranJob_same (enteredStation s req) req (filledJob s origin req)
  rw [record, written]
  generalize ranJob (enteredStation s req) req (filledJob s origin req) = j at same ⊢
  refine ⟨endJob_rail .., ?_, ?_, ?_, ?_⟩
  · rw [endJob_journal, same.requested]
    exact Nat.add_sub_cancel ..
  · rw [endJob_journal]
    rfl
  · rw [← show (filledJob s origin req).number = s.takenNumber from rfl, ← same.number]
    rfl
  · rw [← show (filledJob s origin req).origin = origin from rfl, ← same.origin]
    exact endJob_notified ..

end Sys2Proof.Machine.VanLaws
end

section
/-! PROOFS. START_JOB: what its owner makes of an accepted request, and what the job's record then holds (R109,
R113, R114). -/

namespace Sys2Proof.Machine.VanLaws

open Sys2Proof.Machine.Laws Sys2Proof.Machine.RideLaws

/-! ## What the owner makes of a START_JOB -/

theorem ownStartJob_refused {s : State} {req : StartReq} {reason : RefusalReason} (h : s.judgeStart req = .error reason)
    (p : Port) : ownStartJob p req s = refuse reason s := by
  rw [ownStartJob, h, orRefuse]

/-- The record that a START_JOB at a port leaves. -/
def jobOf (s : State) (p : Port) (req : StartReq) : JobRecord :=
  startedJob (enteredStation s req) req (filledJob s (crewPortOf p) req)

theorem startJob_job_self (s : State) (p : Port) (slot : SlotNo) (req : StartReq) :
    (s.startJob slot (crewPortOf p) req).job slot = some (jobOf s p req) := startWalk_job_self ..

theorem startJob_job_ne (s : State) {slot k : SlotNo} (origin : CrewPort) (req : StartReq) (h : k ≠ slot) :
    (s.startJob slot origin req).job k = s.job k := startWalk_job_ne _ _ _ h

theorem ownStartJob_accepted {s : State} {req : StartReq} {slot : SlotNo} (h : s.judgeStart req = .ok slot) (p : Port) :
    ownStartJob p req s = accept (jobStartedAnswer (jobOf s p req)) (s.startJob slot (crewPortOf p) req) := by
  rw [ownStartJob, h, orRefuse]
  dsimp only
  rw [startJob_job_self]

/-- A START_JOB writes the rail, the jobs, the journal and the port units alone. -/
theorem startJob_parts (s : State) (slot : SlotNo) (origin : CrewPort) (req : StartReq) :
    let u := s.startJob slot origin req
    u = { s with rail := u.rail, vans := u.vans, journal := u.journal, ports := u.ports }
      ∧ u.vans.nextJob = nextJobAfter s.takenNumber ∧ PortsGrow u s := by
  obtain ⟨parts, next, grows⟩ := startWalk_parts (enteredStation s req) slot req (filledJob s origin req)
  exact ⟨parts, next, grows.trans (.of_ports rfl)⟩

/-! ## What the record of an accepted job holds -/

theorem jobOf_same (s : State) (p : Port) (req : StartReq) : SameRequest (jobOf s p req) (filledJob s (crewPortOf p) req) :=
  startedJob_same ..

/-- The position and the conditions of a marking walk, by how it ended (R113). -/
theorem jobOf_walk {s : State} {req : StartReq} (h : req.kind ≠ .audit) (p : Port) :
    (req.count ≤ (found s req).length → (jobOf s p req).position = (marks s req).getLast?.getD req.start
        ∧ (jobOf s p req).conditions = EndConditions.none)
      ∧ ((found s req).length < req.count → ∀ d, stopOf s req = some d → (jobOf s p req).position = d
        ∧ (jobOf s p req).conditions = { EndConditions.none with short := true, stoppedAtFault := true })
      ∧ ((found s req).length < req.count → stopOf s req = none →
        (jobOf s p req).position = (sequenceOf s req).getLast?.getD req.start
        ∧ (jobOf s p req).conditions
            = { EndConditions.none with short := true, walkLimit := decide (req.walk = .cross) })
      ∧ (jobOf s p req).marked = (marks s req).map (fun d => ⟨d, .open⟩) ∧ (jobOf s p req).moved = []
      ∧ (jobOf s p req).mismatch = none := by
  obtain ⟨position, conditions, items, moved, mismatch⟩ :=
    startedJob_walked (s := enteredStation s req) h (filledJob s (crewPortOf p) req)
  change (jobOf s p req).position = (endOf s req).position req.start (marks s req) (sequenceOf s req) at position
  change (jobOf s p req).conditions = (endOf s req).conditions req.walk at conditions
  refine ⟨fun full => ?_, fun short d stop => ?_, fun short stop => ?_, items, moved, mismatch⟩
  · rw [position, conditions, endOf_full full]
    exact ⟨rfl, rfl⟩
  · rw [position, conditions, endOf_stopped short stop]
    exact ⟨rfl, rfl⟩
  · rw [position, conditions, endOf_ranOut short stop]
    exact ⟨rfl, rfl⟩

/-- An AUDIT's counted docks, its position and its first mismatch (R114). -/
theorem jobOf_audit {s : State} {req : StartReq} (h : req.kind = .audit) (p : Port) :
    let pairs := (sequenceOf s req).zip (req.expected.getD [])
    let wrong := pairs.find? (fun q => ((s.dock q.1).state.bike?.map (fun b => b.bike)) != q.2)
    let j := jobOf s p req
    j.marked = [] ∧ j.moved = pairs.map (fun q => ⟨(s.dock q.1).state.bike?.map (fun b => b.bike), false⟩)
      ∧ j.mismatch = wrong.map (fun q => q.1) ∧ j.conditions.mismatch = wrong.isSome
      ∧ j.conditions = { EndConditions.none with mismatch := wrong.isSome }
      ∧ (∀ q, wrong = some q → j.position = q.1)
      ∧ (wrong = none → j.position = (pairs.getLast?.map (fun q => q.1)).getD req.start) := by
  intro pairs wrong j
  have audited : j = _ := startedJob_audit (s := enteredStation s req) h (filledJob s (crewPortOf p) req)
  have position : j.position = match wrong with
      | some q => q.1
      | none => (pairs.getLast?.map (fun q => q.1)).getD req.start := by
    rw [audited]
    rfl
  refine ⟨?_, ?_, ?_, ?_, ?_, fun q hq => by rw [position, hq], fun hq => by rw [position, hq]⟩
  all_goals
    rw [audited]
    rfl

end Sys2Proof.Machine.VanLaws
end

section
/-! PROOFS. START_JOB settled: an accepted job by what its event leaves, whether it marked a dock or ended at once
(R109, R125). -/

namespace Sys2Proof.Machine.VanLaws

open Sys2Proof.Machine.Laws Sys2Proof.Machine.RideLaws

/-! ## The end of a START_JOB's event -/

section Ends

variable {s t : State} {p : Port} {req : StartReq} {slot : SlotNo}

/-- The job of an accepted request that marked a dock, once its event has ended. -/
theorem endsAs_opened (h : ¬ endsAtOnce s req) (ends : t.endsAs (s.startJob slot (crewPortOf p) req) p)
    (notified : ∀ q k, (s.startJob slot (crewPortOf p) req).notified q k → t.notified q k) :
    (jobOf s p req).window = some s.time.config.vanWindow
      ∧ (jobOf s p req).state = (if req.kind = .deliver then .filling else .open)
      ∧ t.journal.reserved = s.journal.reserved + reservationSize req.count ∧ t.journal.records = s.journal.records
      ∧ (∀ d ∈ marks s req, ∀ b, (s.dock d).state = .docked b →
          t.dock d = { s.dock d with state := .vanHeld b s.takenNumber })
      ∧ (∀ d ∈ marks s req, (s.dock d).state = .empty → t.dock d = { s.dock d with state := .vanReserved s.takenNumber })
      ∧ (∀ d, d ∉ marks s req → t.dock d = s.dock d)
      ∧ (∀ k : Fin 8, t.vans.claims[k]
          = if s.time.config.claimed req.start req.direction req.walk k.val = true then some s.takenNumber
            else s.vans.claims[k])
      ∧ (req.kind ≠ .deliver → t.notified .rail .commandWaiting
          ∧ ∃ rest, t.rail.queue = s.rail.queue ++ .batchUnlock s.takenNumber (marks s req) :: rest) := by
  obtain ⟨docks, journal, claims, batch⟩ := startJob_opened h slot (crewPortOf p)
  have opened : jobOf s p req = openedJob (enteredStation s req) req (filledJob s (crewPortOf p) req) :=
    startedJob_opened (s := enteredStation s req) h _
  refine ⟨by rw [opened]; rfl, by rw [opened]; rfl, ?_, ?_, fun d hd b hst => ?_, fun d hd hst => ?_,
    fun d hd => ?_, fun k => ?_, fun kind => ?_⟩
  · rw [endsAs_reserved ends, journal]
  · rw [endsAs_records ends, journal]
  · rw [endsAs_dock ends, docks, if_pos hd, marked, hst]
  · rw [endsAs_dock ends, docks, if_pos hd, marked, hst]
  · rw [endsAs_dock ends, docks, if_neg hd]
  · rw [endsAs_vans ends, claims, enteredStation_claims]
  · obtain ⟨queue, waiting⟩ := batch kind
    obtain ⟨rest, swept, -⟩ := sweptFrom_queue ends.2
    refine ⟨notified _ _ waiting, rest, swept.trans ?_⟩
    show (s.startJob slot (crewPortOf p) req).rail.queue ++ rest = _
    rw [queue, List.append_assoc]
    rfl

/-- The job of an accepted request that ended at once, once its event has ended. -/
theorem endsAs_ended (h : endsAtOnce s req) (ends : t.endsAs (s.startJob slot (crewPortOf p) req) p)
    (notified : ∀ q k, (s.startJob slot (crewPortOf p) req).notified q k → t.notified q k)
    (free : ∀ k : Fin 8, s.time.config.claimed req.start req.direction req.walk k.val = true → s.vans.claims[k] = none) :
    (jobOf s p req).state = .ended ∧ (jobOf s p req).window = none ∧ t.journal.reserved = s.journal.reserved
      ∧ t.journal.records = s.journal.records
          ++ [⟨s.journal.nextSeq, s.stamp, .jobEnd (jobOf s p req).endRecord⟩]
      ∧ (∀ d, t.dock d = s.dock d) ∧ t.notified (crewPortOf p).port .jobEnded
      ∧ ∀ k : Fin 8, s.vans.claims[k] ≠ some s.takenNumber → t.vans.claims[k] = s.vans.claims[k] := by
  obtain ⟨rail, reserved, records, claims, ended⟩ := startJob_ended h slot (crewPortOf p)
  have closed : jobOf s p req = _ := startedJob_ended (s := enteredStation s req) h _
  refine ⟨by rw [closed], by rw [closed], (endsAs_reserved ends).trans reserved, (endsAs_records ends).trans records,
    fun d => (endsAs_dock ends d).trans (dock_congr rail d), notified _ _ ended, fun k other => ?_⟩
  rw [endsAs_vans ends, claims, enteredStation_left (free k) other]

end Ends

/-- The JOB_END of an accepted job, its parts read off the request (R132). -/
theorem jobOf_endRecord (s : State) (p : Port) (req : StartReq) :
    (jobOf s p req).endRecord
      = { number := s.takenNumber, kind := req.kind, origin := crewPortOf p, conditions := (jobOf s p req).conditions,
          requested := req.count, position := (jobOf s p req).position, mismatch := (jobOf s p req).mismatch,
          moved := (jobOf s p req).moved } := by
  have same := jobOf_same s p req
  rw [JobRecord.endRecord, same.number, same.kind, same.origin, same.requested]
  rfl

/-- The batch of an accepted job by its kind (R109). -/
theorem jobOf_batch {s : State} {req : StartReq} (h : req.kind ≠ .audit) (p : Port) :
    (jobOf s p req).batchFetched = if req.kind = .deliver then none else some false := by
  rw [(jobOf_same s p req).batchFetched, filledJob, StartReq.fill]
  cases hk : req.kind
  case audit => exact absurd hk h
  all_goals rfl

/-- Checks that all pass leave the claimed segments free (R106). -/
theorem claimed_free {s : State} {req : StartReq} (h : firstFailing (startChecks s req) = none) (k : Fin 8)
    (claimed : s.time.config.claimed req.start req.direction req.walk k.val = true) : s.vans.claims[k] = none := by
  by_contra taken
  have busy : (List.finRange 8).any (fun k => s.time.config.claimed req.start req.direction req.walk k.val
      && (s.vans.claims[k]).isSome) = true := by
    rw [List.any_eq_true]
    exact ⟨k, List.mem_finRange k, by rw [claimed, Option.isSome_iff_ne_none.2 taken]; rfl⟩
  simp only [startChecks, firstFailing, busy, if_true] at h
  split_ifs at h

/-- Settles O33: the arithmetic, the judgements and the checks by their lemmas; an accepted job by its record, and by
whether it marked a dock. -/
theorem startJobWalks : Obligations.StartJobWalks := by
  unfold Obligations.StartJobWalks
  refine ⟨fun c start front size back hs he h1 h2 => ⟨walk_wrap_up_mod hs he h1 h2, walk_wrap_down_mod hs he h1 h2,
    walk_cross_up_range start hs, walk_cross_down_range ?_, claimed_iff he h1 h2⟩, fun s d handling => ?_,
    fun s p bytes req h => ⟨fun reason failing => ?_, fun slot passing free first => ?_⟩⟩
  · rw [he, List.sum_append, List.sum_cons]
    omega
  · exact ⟨judgeCollect_mark .., (judgeCollect_stop ..).trans (and_congr_left fun _ => handling_stop handling),
      judgeSweep_mark .., judgeSweep_passes s d, judgeDeliver_mark .., judgeDeliver_passes s d⟩
  · change firstFailing (startChecks s req) = some reason at failing
    have judged : s.judgeStart req = .error reason := by rw [judgeStart_guarded, guarded_failing failing]
    exact ⟨_, rfl, serve_refused h (ownStartJob_refused (s := s.endRequest p _) judged p)⟩
  · change firstFailing (startChecks s req) = none at passing
    have judged : s.judgeStart req = .ok slot := by
      rw [judgeStart_guarded, guarded_passing passing, slotOrFull, freeSlot_first free first]
    let s0 := s.endRequest p (bytes.length + 1)
    obtain ⟨parts, next, grows⟩ := startJob_parts s0 slot (crewPortOf p) req
    obtain ⟨answered, ends, kept, notified⟩ :=
      serve_accepted h rfl (ownStartJob_accepted (s := s0) judged p) grows.follow
    have vans := endsAs_vans ends
    have same := jobOf_same s0 p req
    have answer : jobStartedAnswer (jobOf s0 p req)
        = .jobStarted s.takenNumber (jobOf s0 p req).state ((jobOf s0 p req).marked.map (fun i => i.dock))
            (jobOf s0 p req).position (jobOf s0 p req).conditions (jobOf s0 p req).mismatch := by
      rw [jobStartedAnswer, same.number]
      rfl
    refine ⟨_, jobOf s0 p req, rfl, ?_, answer ▸ answered, same.number, same.origin, same.kind, same.requested, same.start,
      same.direction, same.walk, same.faultHandling, same.expected, fun k => ?_, fun k x hx => takenNumber_free free hx,
      ?_, fun k hk => ?_, kept, ?_, ?_, ?_, ?_, ?_, ?_, fun marking nonempty => ?_, fun ended => ?_, fun audit => ?_⟩
    · rw [job_congr vans, startJob_job_self]
    · rw [same.claimed]
      exact claim_getLsbD ..
    · rw [vans, next]
      rfl
    · rw [job_congr vans, startJob_job_ne _ _ _ hk]
      rfl
    · exact (endsAs_cards ends).trans (congrArg State.cards parts :)
    · exact (endsAs_faults ends).trans (congrArg State.faults parts :)
    · exact (endsAs_rides ends).trans (congrArg State.rides parts :)
    · exact (endsAs_fares ends).trans (congrArg State.fares parts :)
    · rw [endsAs_time ends, State.clocked, State.clocked, (congrArg State.time parts :)]
      rfl
    · exact fun marking => jobOf_walk (s := s0) marking p
    · have opens : ¬ endsAtOnce s0 req := fun e => e.elim marking nonempty
      obtain ⟨window, state, journal⟩ := endsAs_opened opens ends notified
      exact ⟨window, state, jobOf_batch (s := s0) marking p, journal⟩
    · obtain ⟨state, window, reserved, records, docks, jobEnded, claims⟩ :=
        endsAs_ended (s := s0) ended ends notified (claimed_free (s := s0) passing)
      rw [jobOf_endRecord] at records
      exact ⟨state, window, reserved, records, docks, jobEnded, claims⟩
    · exact jobOf_audit (s := s0) audit p

end Sys2Proof.Machine.VanLaws
end

section
/-! PROOFS. The journal's slots in account: what the docks and the jobs have set aside, and what the operations on docks and on
the journal make of it (R134, R135). -/

namespace Sys2Proof.Machine.LedgerLaws

open Sys2Proof.Machine.Laws RideLaws VanLaws JournalLaws

/-! ## What docks and jobs have set aside -/

/-- The slot set aside for the RELEASE of an UNLOCKING dock (R134). -/
def dockReserve (x : Dock) : Nat := if x.state.isUnlocking then 1 else 0

/-- The slots set aside for the JOB_END of the job in a slot, while it is open (R109, R134). -/
def jobReserve : Option JobRecord → Nat
  | none => 0
  | some j => if j.state = .ended then 0 else reservationSize j.requested

/-- All that docks and jobs have set aside. -/
def owed (s : State) : Nat := ∑ d : DockNo, dockReserve (s.dock d) + ∑ i : SlotNo, jobReserve (s.job i)

/-- The slots of the ring that are held or set aside (R135). -/
def used (j : Journal) : Nat := j.heldSlots + j.reserved

theorem dockReserve_none {x : Dock} (h : x.state.isUnlocking = false) : dockReserve x = 0 := by simp [dockReserve, h]

theorem dockReserve_unlocking {x : Dock} (h : x.state.isUnlocking = true) : dockReserve x = 1 := by simp [dockReserve, h]

theorem jobReserve_none : jobReserve none = 0 := rfl

theorem jobReserve_ended {j : JobRecord} (h : j.state = .ended) : jobReserve (some j) = 0 := if_pos h

theorem jobReserve_open {j : JobRecord} (h : j.state ≠ .ended) : jobReserve (some j) = reservationSize j.requested := if_neg h

theorem unlocking_count (s : State) (l : List DockNo) :
    l.countP (fun d => (s.dock d).state.isUnlocking) = (l.map (fun d => dockReserve (s.dock d))).sum := by
  induction l with
  | nil => rfl
  | cons d ds ih =>
    rw [List.countP_cons, List.map_cons, List.sum_cons, ih, Nat.add_comm]
    rfl

theorem open_sizes (s : State) (l : List SlotNo) :
    ((l.filterMap s.job).map (fun j => if j.state = .ended then 0 else 1 + (j.requested + 7) / 8)).sum
      = (l.map (fun i => jobReserve (s.job i))).sum := by
  induction l with
  | nil => rfl
  | cons i is ih =>
    rw [List.map_cons, List.sum_cons, ← ih]
    cases h : s.job i with
    | none => rw [List.filterMap_cons_none h]; exact (Nat.zero_add _).symm
    | some j => rw [List.filterMap_cons_some h]; rfl

theorem reservationsRight_iff (s : State) : s.reservationsRight ↔ s.journal.reserved = owed s := by
  unfold State.reservationsRight owed
  rw [unlocking_count, open_sizes, Fin.sum_univ_def, Fin.sum_univ_def]

/-- Two sums that differ at one place at most. -/
theorem sum_written {n : Nat} (f g : Fin n → Nat) (d : Fin n) (h : ∀ e, e ≠ d → g e = f e) :
    ∑ e, g e + f d = ∑ e, f e + g d := by
  have rest : ∑ e ∈ Finset.univ.erase d, g e = ∑ e ∈ Finset.univ.erase d, f e :=
    Finset.sum_congr rfl fun e he => h e (Finset.ne_of_mem_erase he)
  rw [← Finset.add_sum_erase _ g (Finset.mem_univ d), ← Finset.add_sum_erase _ f (Finset.mem_univ d), rest]
  omega

theorem owed_same {t s : State} (docks : ∀ d, dockReserve (t.dock d) = dockReserve (s.dock d))
    (jobs : ∀ i, t.job i = s.job i) : owed t = owed s := by
  simp only [owed, docks, jobs]

/-- One dock is written. -/
theorem owed_dock {t s : State} (d : DockNo) (docks : ∀ e, e ≠ d → t.dock e = s.dock e) (jobs : ∀ i, t.job i = s.job i) :
    owed t + dockReserve (s.dock d) = owed s + dockReserve (t.dock d) := by
  have sums : ∑ e : DockNo, dockReserve (t.dock e) + dockReserve (s.dock d)
      = ∑ e : DockNo, dockReserve (s.dock e) + dockReserve (t.dock d) :=
    sum_written (fun e => dockReserve (s.dock e)) _ d fun e he => by rw [docks e he]
  simp only [owed, jobs]
  omega

/-- One job is written. -/
theorem owed_job {t s : State} (slot : SlotNo) (docks : ∀ d, dockReserve (t.dock d) = dockReserve (s.dock d))
    (jobs : ∀ k, k ≠ slot → t.job k = s.job k) : owed t + jobReserve (s.job slot) = owed s + jobReserve (t.job slot) := by
  have sums : ∑ i : SlotNo, jobReserve (t.job i) + jobReserve (s.job slot)
      = ∑ i : SlotNo, jobReserve (s.job i) + jobReserve (t.job slot) :=
    sum_written (fun i => jobReserve (s.job i)) _ slot fun k hk => by rw [jobs k hk]
  simp only [owed, docks]
  omega

theorem dockReserve_le_owed (s : State) (d : DockNo) : dockReserve (s.dock d) ≤ owed s :=
  (Finset.single_le_sum (f := fun d => dockReserve (s.dock d)) (fun _ _ => Nat.zero_le _) (Finset.mem_univ d)).trans
    (Nat.le_add_right ..)

theorem jobReserve_le_owed (s : State) (i : SlotNo) : jobReserve (s.job i) ≤ owed s :=
  (Finset.single_le_sum (f := fun i => jobReserve (s.job i)) (fun _ _ => Nat.zero_le _) (Finset.mem_univ i)).trans
    (Nat.le_add_left ..)

/-! ## The account and what an operation makes of it -/

/-- A job whose record fits its reservation: it is open while it has a window, and counts no more bikes than requested (R102,
R109). -/
structure JobFits (j : JobRecord) : Prop where
  window : j.window ≠ none → j.state ≠ .ended
  moved : j.moved.length ≤ j.requested

/-- The account is in order: the reservation count is what docks and jobs have set aside, and every job fits. -/
structure Booked (s : State) : Prop where
  reserved : s.journal.reserved = owed s
  jobs : ∀ i j, s.job i = some j → JobFits j

/-- From `s` to `t`, within one event and under a condition, the account stays in order and the ring is not overfilled; the mode
stands until the event ends (R136). -/
structure Accounts (c : Prop) (t s : State) : Prop where
  mode : t.journal.mode = s.journal.mode
  kept : c → Booked s → Booked t ∧ used t.journal ≤ max 1024 (used s.journal)

theorem Accounts.trans {c : Prop} {t u s : State} (h1 : Accounts c t u) (h2 : Accounts c u s) : Accounts c t s := by
  refine ⟨h1.mode.trans h2.mode, fun hc hs => ?_⟩
  obtain ⟨hu, ring⟩ := h2.kept hc hs
  obtain ⟨ht, ring'⟩ := h1.kept hc hu
  exact ⟨ht, by omega⟩

/-- The account reads the UNLOCKING docks, the jobs and the journal alone. -/
theorem Accounts.of_same {c : Prop} {t s : State} (docks : ∀ d, dockReserve (t.dock d) = dockReserve (s.dock d))
    (jobs : ∀ i, t.job i = s.job i) (journal : t.journal = s.journal) : Accounts c t s := by
  refine ⟨by rw [journal], fun _ hs => ⟨⟨?_, fun i j h => hs.jobs i j (jobs i ▸ h)⟩, by rw [journal]; exact le_max_right ..⟩⟩
  rw [journal, owed_same docks jobs, hs.reserved]

theorem Accounts.of_parts {c : Prop} {t s : State} (rail : t.rail = s.rail) (vans : t.vans = s.vans)
    (journal : t.journal = s.journal) : Accounts c t s :=
  .of_same (fun d => by rw [dock_congr rail]) (fun i => job_congr vans i) journal

/-- What is written after an operation outside the rail, the jobs and the journal keeps what the operation kept. -/
theorem Accounts.written {c : Prop} {t v s : State} (h : Accounts c v s) (rail : t.rail = v.rail) (vans : t.vans = v.vans)
    (journal : t.journal = v.journal) : Accounts c t s := (Accounts.of_parts rail vans journal).trans h

theorem Accounts.refl {c : Prop} (s : State) : Accounts c s s := .of_parts rfl rfl rfl

/-- A walk whose every step keeps the account keeps it. -/
theorem foldl_accounts {α : Type} {c : Prop} {f : State → α → State} (h : ∀ s x, Accounts c (f s x) s) (l : List α) (s : State) :
    Accounts c (l.foldl f s) s :=
  foldl_invariant f (fun u => Accounts c u s) (fun u x hu => (h u x).trans hu) l s (.refl s)

/-! ## Records appended -/

theorem append_used (s : State) (body : RecordBody) : used (s.append body).journal = used s.journal + body.slots := by
  unfold used Journal.heldSlots
  rw [append_journal, slotsOf_append]
  simp only [slotsOf, List.map_cons, List.map_nil, List.sum_cons, List.sum_nil, Record.slots]
  omega

/-- Where slots are free the ring has room for them (R135). -/
theorem room_of_free {j : Journal} {n : Nat} (h : n ≤ j.free) : used j + n ≤ max 1024 (used j) := by
  unfold Journal.free at h
  unfold used
  simp only [show Config.ringSlots = 1024 from rfl] at h
  split_ifs at h <;> omega

/-- A record appended outside any reservation finds its slots free (R139). -/
theorem append_accounts {c : Prop} {s : State} {body : RecordBody} (room : body.slots ≤ s.freeSlots) :
    Accounts c (s.append body) s :=
  ⟨rfl, fun _ hs => ⟨⟨hs.reserved, hs.jobs⟩, append_used s body ▸ room_of_free room⟩⟩

theorem appendIfRoom_accounts {c : Prop} (s : State) (body : RecordBody) : Accounts c (s.appendIfRoom body) s := by
  unfold State.appendIfRoom
  split
  · next room => exact append_accounts room
  · exact .refl s

/-! ## Docks written outside a release -/

theorem putDock_accounts {c : Prop} (s : State) (d : DockNo) {x : Dock}
    (h : x.state.isUnlocking = (s.dock d).state.isUnlocking) : Accounts c (s.putDock d x) s := by
  refine .of_same (fun e => ?_) (fun _ => rfl) rfl
  by_cases he : e = d
  · subst he
    simp only [putDock_dock_self, dockReserve, h]
  · rw [putDock_dock_ne _ _ he]

theorem putDockState_accounts {c : Prop} (s : State) (d : DockNo) {st : DockState}
    (h : st.isUnlocking = (s.dock d).state.isUnlocking) : Accounts c (s.putDockState d st) s := putDock_accounts s d h

theorem withToken_isUnlocking (flag : Bool) (st : DockState) : (st.withToken flag).isUnlocking = st.isUnlocking := by
  cases st <;> rfl

theorem returned_reserve (x : Dock) : dockReserve (returned x) = dockReserve x := by
  obtain ⟨st, _⟩ := x
  cases st <;> rfl

theorem marked_reserve (number : Nat) (x : Dock) : dockReserve (marked number x) = dockReserve x := by
  obtain ⟨st, _⟩ := x
  cases st <;> rfl

theorem returnDock_accounts {c : Prop} (s : State) (d : DockNo) : Accounts c (s.returnDock d) s := by
  refine .of_same (fun e => ?_) (fun i => by rw [returnDock_withDock]; rfl) (returnDock_journal s d)
  rw [returnDock_dock]
  split
  · next h => rw [h, returned_reserve]
  · rfl

/-! ## Releases -/

/-- An accepted release sets a slot aside for its RELEASE record (R30, R134). -/
theorem grantRelease_booked {s : State} {g : Grant} (p : RiderPort) (idle : (s.dock g.dock).state.isUnlocking = false)
    (hs : Booked s) : Booked (s.grantRelease p g) ∧ used (s.grantRelease p g).journal = used s.journal + 1 := by
  have now : ((s.grantRelease p g).dock g.dock).state.isUnlocking = true := by
    rw [State.grantRelease, pushCommand_dock, modifyCard_dock, putDockState_dock_self]
    rfl
  have journal : (s.grantRelease p g).journal = { s.journal with reserved := s.journal.reserved + 1 } := by
    rw [State.grantRelease, pushCommand_journal, modifyCard_journal, putDockState_journal]
    rfl
  have vans : (s.grantRelease p g).vans = s.vans := by
    rw [State.grantRelease, pushCommand_vans, modifyCard_vans, putDockState_vans]
    rfl
  have docks : ∀ e, e ≠ g.dock → (s.grantRelease p g).dock e = s.dock e := fun e he => by
    rw [State.grantRelease, pushCommand_dock, modifyCard_dock, putDockState_dock_ne _ _ he]
    rfl
  have jobs := job_congr vans
  have count := owed_dock g.dock docks jobs
  rw [dockReserve_none idle, dockReserve_unlocking now] at count
  refine ⟨⟨?_, fun i j h => hs.jobs i j (jobs i ▸ h)⟩, ?_⟩
  · rw [journal, ← Nat.add_zero (owed _), count, hs.reserved]
  · rw [journal]
    rfl

/-- A release that ends gives its slot back, and appends at most its RELEASE record of one slot (R31, R32, R34, R141). -/
theorem endedRelease_accounts {c : Prop} {t s : State} {d : DockNo} (was : (s.dock d).state.isUnlocking = true)
    (now : (t.dock d).state.isUnlocking = false) (docks : ∀ e, e ≠ d → t.dock e = s.dock e) (vans : t.vans = s.vans)
    (mode : t.journal.mode = s.journal.mode) (reserved : t.journal.reserved = s.journal.reserved - 1)
    (held : t.journal.heldSlots ≤ s.journal.heldSlots + 1) : Accounts c t s := by
  have jobs := job_congr vans
  refine ⟨mode, fun _ hs => ?_⟩
  have count := owed_dock d docks jobs
  have some := dockReserve_le_owed s d
  rw [dockReserve_none now] at count
  rw [dockReserve_unlocking was] at count some
  have right := hs.reserved
  refine ⟨⟨by omega, fun i j h => hs.jobs i j (jobs i ▸ h)⟩, ?_⟩
  unfold used
  omega

@[simp] theorem endLapsed_journal (s : State) (d : DockNo) (r : ReleaseRecord) (reason : LapseReason) :
    (s.endLapsed d r reason).journal = { s.journal with reserved := s.journal.reserved - 1 } := by
  rw [State.endLapsed, outcome_journal, clearInFlight_journal]
  rfl

@[simp] theorem endLapsed_vans (s : State) (d : DockNo) (r : ReleaseRecord) (reason : LapseReason) :
    (s.endLapsed d r reason).vans = s.vans := by
  rw [State.endLapsed, outcome_vans]
  rfl

theorem lapseRelease_accounts {c : Prop} {s : State} {d : DockNo} {b : DockedBike} {r : ReleaseRecord} (reason : LapseReason)
    (h : (s.dock d).state = .unlocking b r) : Accounts c (s.lapseRelease d b r reason) s := by
  have journal : (s.lapseRelease d b r reason).journal = { s.journal with reserved := s.journal.reserved - 1 } := by
    rw [State.lapseRelease, endLapsed_journal, putDockState_journal, giveUp_journal]
  refine endedRelease_accounts (d := d) (by rw [h]; rfl) ?_ (fun e he => lapseRelease_dock_ne _ _ _ _ he) ?_
    (by rw [journal]) (by rw [journal]) (by rw [journal]; exact Nat.le_succ _)
  · rw [lapseRelease_dock_self]
    rfl
  · rw [State.lapseRelease, endLapsed_vans, putDockState_vans, giveUp_vans]

theorem completeRelease_accounts {c : Prop} {s : State} {d : DockNo} {b : DockedBike} {r : ReleaseRecord}
    (h : (s.dock d).state = .unlocking b r) : Accounts c (s.completeRelease d b r) s := by
  let record : RecordBody := .release r.card d b.bike r.ride r.origin r.provisional
  have journal : (s.completeRelease d b r).journal
      = { s.journal with
          records := s.journal.records ++ [⟨s.journal.nextSeq, s.stamp, record⟩]
          nextSeq := s.journal.nextSeq + 1
          reserved := s.journal.reserved - 1 } := by
    rw [State.completeRelease, outcome_journal, clearInFlight_journal]
    rfl
  have docks : ∀ e, (s.completeRelease d b r).dock e = ((s.resolveDock (.release d) d).putDockState d .empty).dock e := fun e => by
    rw [State.completeRelease, outcome_dock, clearInFlight_dock, appendReserved_dock]
  refine endedRelease_accounts (d := d) (by rw [h]; rfl) ?_ (fun e he => ?_) ?_ (by rw [journal]) (by rw [journal]) ?_
  · rw [docks, putDockState_dock_self]
    rfl
  · rw [docks, putDockState_dock_ne _ _ he]
    rfl
  · rw [State.completeRelease, outcome_vans]
    rfl
  · rw [journal]
    show slotsOf _ ≤ _
    rw [slotsOf_append]
    rfl

/-! ## Holds, ticks and quarantines at the docks -/

theorem loseHold_accounts {c : Prop} (s : State) (d : DockNo) (h : HoldRecord) (cause : LossCause) :
    Accounts c (s.loseHold d h cause) s := .of_parts (outcome_rail ..) (outcome_vans ..) (loseHold_journal ..)

theorem expireHold_accounts {c : Prop} {s : State} {d : DockNo} (b : DockedBike) (h : HoldRecord)
    (was : (s.dock d).state.isUnlocking = false) : Accounts c (s.expireHold d b h) s :=
  (putDockState_accounts s d (st := .docked b) was.symm).written (outcome_rail ..) (outcome_vans ..) (outcome_journal ..)

theorem tickDock_accounts {c : Prop} (s : State) (d : DockNo) : Accounts c (s.tickDock d) s := by
  unfold State.tickDock
  cases h : (s.dock d).state <;> dsimp only
  case held b k =>
    split
    · exact expireHold_accounts b k (by rw [h]; rfl)
    · exact putDockState_accounts s d (by rw [h]; rfl)
  case unlocking b r =>
    split
    · exact lapseRelease_accounts _ h
    · exact putDockState_accounts s d (by rw [h]; rfl)
  all_goals exact .refl s

theorem quarantineDock_accounts {c : Prop} (bike : Nat) (s : State) (d : DockNo) : Accounts c (s.quarantineDock bike d) s := by
  unfold State.quarantineDock
  cases h : (s.dock d).state <;> dsimp only
  case held b k =>
    split
    · exact (loseHold_accounts ..).trans (putDockState_accounts s d (by rw [h]; rfl))
    · exact .refl s
  case unlocking b r =>
    split
    · exact lapseRelease_accounts _ h
    · exact .refl s
  all_goals exact .refl s

/-! ## Reports -/

theorem takeReport_accounts {c : Prop} (s : State) (r : Report) (p : Place) : Accounts c (s.takeReport r p) s := by
  unfold State.takeReport
  refine (appendIfRoom_accounts ..).trans ?_
  split
  · exact (foldl_accounts (quarantineDock_accounts r.bike) ..).trans (.of_parts rfl rfl rfl)
  · exact .of_parts rfl rfl rfl

theorem internalReport_accounts {c : Prop} (s : State) (bike : Nat) (d : DockNo) (category : Category) :
    Accounts c (s.internalReport bike d category) s := by
  unfold State.internalReport
  dsimp only
  split
  · exact takeReport_accounts ..
  · exact appendIfRoom_accounts ..

theorem forceRemoval_accounts {c : Prop} {s : State} {d : DockNo} (b : DockedBike) (hold : Option HoldRecord)
    (was : (s.dock d).state.isUnlocking = false) : Accounts c (s.forceRemoval d b hold) s := by
  have emptied : Accounts c (((s.dropOpening d).dropRelock d).putDockState d .empty) s :=
    (putDockState_accounts ((s.dropOpening d).dropRelock d) d (st := .empty) was.symm).trans (.of_same (fun _ => rfl) (fun _ => rfl) rfl)
  unfold State.forceRemoval
  refine (internalReport_accounts ..).trans ?_
  cases hold with
  | none => exact emptied
  | some h => exact (loseHold_accounts ..).trans emptied

end Sys2Proof.Machine.LedgerLaws
end

section
/-! PROOFS. What the van jobs make of the account: jobs written back, ended, started and reset (R109, R125, R134, R138). -/

namespace Sys2Proof.Machine.LedgerLaws

open Sys2Proof.Machine.Laws RideLaws VanLaws JournalLaws

/-! ## Jobs that still count -/

/-- Every open job has room for one more bike. -/
def JobsRoom (s : State) : Prop := ∀ i j, s.job i = some j → j.state ≠ .ended → j.moved.length < j.requested

/-- The job of a number, where a slot holds it, is open. -/
def NumberOpen (s : State) (number : Nat) : Prop :=
  ∀ slot j, s.slotOf number = some slot → s.job slot = some j → j.state ≠ .ended

theorem JobsRoom.of_vans {t s : State} (h : JobsRoom s) (vans : t.vans = s.vans) : JobsRoom t :=
  fun i j hj => h i j (job_congr vans i ▸ hj)

theorem NumberOpen.of_vans {t s : State} {number : Nat} (h : NumberOpen s number) (vans : t.vans = s.vans) :
    NumberOpen t number := fun slot j found held => h slot j (slotOf_congr vans number ▸ found) (job_congr vans slot ▸ held)

theorem jobsSound_room {s : State} (h : s.jobsSound) : JobsRoom s := by
  obtain ⟨-, -, -, -, sound, -⟩ := h
  intro i j hj running
  obtain ⟨-, -, -, -, ended, -, -, fits, -⟩ := sound i j hj
  have := List.length_pos_iff.2 fun e => running (ended.2 e)
  omega

theorem jobsSound_fits {s : State} (h : s.jobsSound) {i : SlotNo} {j : JobRecord} (hj : s.job i = some j) : JobFits j := by
  obtain ⟨-, -, -, -, sound, -⟩ := h
  obtain ⟨-, -, -, -, -, window, -, fits, -⟩ := sound i j hj
  exact ⟨fun open' ended => open' (window.1 ended), by omega⟩

/-- A marked dock names an open job (R106). -/
theorem jobsSound_open {s : State} (h : s.jobsSound) {d : DockNo} {number : Nat}
    (marked : (s.dock d).state.jobNumber? = some number) : NumberOpen s number := by
  obtain ⟨-, -, -, unique, sound, marks, -⟩ := h
  intro slot j hs hj ended
  obtain ⟨i, k, hk, named, item⟩ := (marks d number).1 marked
  obtain ⟨j', hj', number'⟩ := slotOf_job hs
  rw [hj] at hj'
  cases hj'
  have same : i = slot := unique i slot k j hk hj (named.trans number'.symm)
  subst same
  rw [hj] at hk
  cases hk
  obtain ⟨-, -, -, -, items, -⟩ := sound i j hj
  rw [items.1 ended] at item
  exact List.not_mem_nil item

/-! ## A job written back -/

theorem jobEnd_slots_le {j : JobRecord} (h : j.moved.length ≤ j.requested) :
    (RecordBody.jobEnd j.endRecord).slots ≤ reservationSize j.requested := by
  show 1 + (j.moved.length + 7) / 8 ≤ 1 + (j.requested + 7) / 8
  omega

/-- A job that ends appends its JOB_END into its reservation (R125, R138). -/
theorem endJob_accounts {c : Prop} {s : State} {slot : SlotNo} {old j : JobRecord} (held : s.job slot = some old)
    (running : c → JobFits old → old.state ≠ .ended) (requested : j.requested = old.requested)
    (moved : c → JobFits old → j.moved.length ≤ j.requested) : Accounts c (s.endJob slot j) s := by
  refine ⟨by rw [endJob_journal], fun hc hs => ?_⟩
  have fits := hs.jobs slot old held
  have others : ∀ k, k ≠ slot → (s.endJob slot j).job k = s.job k := fun k hk => endJob_job_ne s j hk
  have count := owed_job (t := s.endJob slot j) (s := s) slot (fun _ => rfl) others
  have reserve := jobReserve_le_owed s slot
  rw [endJob_job_self, jobReserve_ended rfl, held, jobReserve_open (running hc fits), ← requested] at count
  rw [held, jobReserve_open (running hc fits), ← requested] at reserve
  have right := hs.reserved
  have size := jobEnd_slots_le (moved hc fits)
  refine ⟨⟨?_, fun i k hk => ?_⟩, ?_⟩
  · rw [endJob_journal]
    dsimp only
    omega
  · by_cases hi : i = slot
    · subst hi
      rw [endJob_job_self] at hk
      cases hk
      exact ⟨fun h => absurd rfl h, moved hc fits⟩
    · exact hs.jobs i k (others i hi ▸ hk)
  · have grown : (s.endJob slot j).journal.heldSlots = s.journal.heldSlots + (RecordBody.jobEnd j.endRecord).slots := by
      show slotsOf (s.endJob slot j).journal.records = _
      rw [endJob_journal, slotsOf_append]
      rfl
    unfold used
    rw [grown, endJob_journal]
    dsimp only
    omega

/-- A job written back as open as it was. -/
theorem setJob_accounts {c : Prop} {s : State} {slot : SlotNo} {old j : JobRecord} (held : s.job slot = some old)
    (state : j.state = old.state) (requested : j.requested = old.requested) (fits : c → JobFits old → JobFits j) :
    Accounts c (s.setJob slot (some j)) s := by
  have others : ∀ k, k ≠ slot → (s.setJob slot (some j)).job k = s.job k := fun k hk => setJob_job_ne s _ hk
  refine ⟨rfl, fun hc hs => ⟨⟨?_, fun i k hk => ?_⟩, le_max_right ..⟩⟩
  · have count := owed_job (t := s.setJob slot (some j)) (s := s) slot (fun _ => rfl) others
    have same : jobReserve (some j) = jobReserve (some old) := by simp only [jobReserve, state, requested]
    rw [setJob_job_self, held, same] at count
    rw [setJob_journal, hs.reserved]
    omega
  · by_cases hi : i = slot
    · subst hi
      rw [setJob_job_self] at hk
      cases hk
      exact fits hc (hs.jobs i old held)
    · exact hs.jobs i k (others i hi ▸ hk)

/-- An open job that takes at most one more bike is written back, and ends where no item remains OPEN. -/
theorem settleJob_accounts {c : Prop} {s : State} {slot : SlotNo} {old j : JobRecord} (held : s.job slot = some old)
    (running : c → old.state ≠ .ended ∧ old.moved.length < old.requested) (state : j.state = old.state)
    (requested : j.requested = old.requested) (moved : j.moved.length ≤ old.moved.length + 1) :
    Accounts c (s.settleJob slot j) s := by
  have fits : c → j.moved.length ≤ j.requested := fun hc => by
    have := (running hc).2
    omega
  rcases settleJob_cases s slot j with ⟨_, e⟩ | ⟨_, e⟩ <;> rw [e]
  · exact endJob_accounts held (fun hc _ => (running hc).1) requested (fun hc _ => fits hc)
  · exact setJob_accounts held state requested fun hc _ => ⟨fun _ => state ▸ (running hc).1, fits hc⟩

/-- Work on a numbered job keeps the account where the work itself does. -/
theorem withJob_accounts {c : Prop} {s : State} {number : Nat} {work : SlotNo → JobRecord → State → State}
    (h : ∀ slot j, s.slotOf number = some slot → s.job slot = some j → Accounts c (work slot j s) s) :
    Accounts c (s.withJob number work) s := by
  unfold State.withJob
  split
  · exact .refl s
  · next slot found =>
    split
    · next j held => exact h slot j found held
    · exact .refl s

/-! ## What the rail's reports do -/

theorem countRemoval_accounts {c : Prop} {s : State} {number : Nat} (room : c → JobsRoom s) (running : c → NumberOpen s number)
    (d : DockNo) (b : DockedBike) : Accounts c (s.countRemoval number d b) s :=
  withJob_accounts fun slot j found held => settleJob_accounts held
    (fun hc => ⟨running hc slot j found held, room hc slot j held (running hc slot j found held)⟩) rfl rfl
    (List.length_append).le

theorem faultItem_accounts {c : Prop} {s : State} {number : Nat} (room : c → JobsRoom s) (running : c → NumberOpen s number)
    (d : DockNo) : Accounts c (s.faultItem number d) s :=
  withJob_accounts fun slot j found held => settleJob_accounts held
    (fun hc => ⟨running hc slot j found held, room hc slot j held (running hc slot j found held)⟩) rfl rfl (Nat.le_succ _)

theorem countDelivery_accounts {c : Prop} {s : State} {number : Nat} (room : c → JobsRoom s)
    (running : c → NumberOpen s number) (d : DockNo) (bike : Nat) : Accounts c (s.countDelivery number d bike) s :=
  withJob_accounts fun slot j found held => settleJob_accounts held
    (fun hc => ⟨running hc slot j found held, room hc slot j held (running hc slot j found held)⟩) rfl rfl
    (List.length_append).le

/-- A rider's return into a reserved dock marks another EMPTY dock at most (R120). -/
theorem remark_accounts {c : Prop} {s : State} {number : Nat} (room : c → JobsRoom s) (running : c → NumberOpen s number)
    (d : DockNo) : Accounts c (s.remark number d) s := by
  refine withJob_accounts fun slot j found held => ?_
  have runs : c → j.state ≠ .ended ∧ j.moved.length < j.requested :=
    fun hc => ⟨running hc slot j found held, room hc slot j held (running hc slot j found held)⟩
  dsimp only
  split
  · next x chosen =>
    have empty : (s.dock x).state = .empty := by
      have h := List.find?_some chosen
      unfold State.deliverable at h
      cases hst : (s.dock x).state <;> simp [hst, DockState.isEmpty] at h
      rfl
    have kept : (s.putDockState x (.vanReserved number)).job slot = some j := held
    refine .trans (settleJob_accounts kept runs rfl rfl (Nat.le_succ _)) ?_
    exact putDockState_accounts s x (by rw [empty]; rfl)
  · exact settleJob_accounts held runs rfl rfl (Nat.le_succ _)

theorem fillingAt_filling {s : State} {d : DockNo} {slot : SlotNo} {j : JobRecord} (h : s.fillingAt d = some slot)
    (held : s.job slot = some j) : j.state = .filling := by
  unfold State.fillingAt at h
  split at h
  · cases h
  · have found := List.find?_some h
    rw [held] at found
    simp only [Bool.and_eq_true, decide_eq_true_eq] at found
    exact found.1

theorem countStray_accounts {c : Prop} {s : State} (room : c → JobsRoom s) (d : DockNo) (bike : Nat) :
    Accounts c (s.countStray d bike) s := by
  unfold State.countStray
  split
  · exact .refl s
  · next slot found =>
    split
    · exact .refl s
    · next j held =>
      have filling : j.state ≠ .ended := by rw [fillingAt_filling found held]; decide
      have runs : c → j.state ≠ .ended ∧ j.moved.length < j.requested := fun hc => ⟨filling, room hc slot j held filling⟩
      dsimp only
      split
      · next last _ =>
        have kept : (s.returnDock last).job slot = some j := by rw [returnDock_withDock]; exact held
        exact .trans (settleJob_accounts kept runs rfl rfl (List.length_append).le) (returnDock_accounts s last)
      · exact settleJob_accounts held runs rfl rfl (List.length_append).le

/-! ## The end of a job's time -/

/-- An open job ended before its items are resolved (R123, R124). -/
theorem cutJob_accounts {c : Prop} {s : State} {slot : SlotNo} {j : JobRecord} (held : s.job slot = some j)
    (running : JobFits j → j.state ≠ .ended) (add : EndConditions → EndConditions) : Accounts c (s.cutJob slot j add) s := by
  have closed := closeBatch_eq j (rewriteDocks returned j.openDocks s)
  have rewritten := rewriteDocks_eq returned j.openDocks s
  have vans : (closeBatch j (rewriteDocks returned j.openDocks s)).vans = s.vans := by rw [closed, rewritten]
  have journal : (closeBatch j (rewriteDocks returned j.openDocks s)).journal = s.journal := by rw [closed, rewritten]
  have docks : ∀ d, dockReserve ((closeBatch j (rewriteDocks returned j.openDocks s)).dock d) = dockReserve (s.dock d) := by
    intro d
    rw [closeBatch_dock, rewriteDocks_dock returned_returned]
    split
    · exact returned_reserve _
    · rfl
  rw [cutJob_eq]
  refine .trans (endJob_accounts ?_ (fun _ => running) rfl fun _ fits => fits.moved) (.of_same docks (job_congr vans) journal)
  rw [job_congr vans, held]

theorem tickJob_accounts {c : Prop} (s : State) (slot : SlotNo) : Accounts c (s.tickJob slot) s := by
  unfold State.tickJob
  split
  · exact .refl s
  · next j held =>
    split
    · exact .refl s
    · next w window =>
      have running : JobFits j → j.state ≠ .ended := fun fits => fits.window (by rw [window]; exact Option.some_ne_none w)
      split
      · exact cutJob_accounts held running _
      · exact setJob_accounts held rfl rfl fun _ fits => ⟨fun _ => running fits, fits.moved⟩

/-! ## START_JOB -/

/-- A started job fits: an AUDIT counts no more docks than it expects, and a walk counts none. -/
theorem jobOf_fits (s : State) (p : Port) (req : StartReq) : JobFits (VanLaws.jobOf s p req) := by
  have requested : (VanLaws.jobOf s p req).requested = req.count := (jobOf_same s p req).requested
  refine ⟨?_, ?_⟩
  · unfold VanLaws.jobOf startedJob openedJob
    split_ifs <;> simp
  · rw [requested]
    by_cases audit : req.kind = .audit
    · rw [VanLaws.jobOf, startedJob_audit audit]
      show (List.map _ (List.zip _ _)).length ≤ _
      rw [List.length_map, List.length_zip, StartReq.count, audit]
      exact Nat.min_le_right ..
    · rw [VanLaws.jobOf, (startedJob_walked (s := enteredStation s req) audit _).2.2.2.1]
      exact Nat.zero_le _

/-- A job entered in a free slot, with the slots of its JOB_END set aside while it is open. -/
theorem enteredJob_accounts {c : Prop} {t s : State} {slot : SlotNo} {j : JobRecord} (free : s.job slot = none)
    (self : t.job slot = some j) (others : ∀ k, k ≠ slot → t.job k = s.job k)
    (docks : ∀ d, dockReserve (t.dock d) = dockReserve (s.dock d)) (fits : JobFits j)
    (mode : t.journal.mode = s.journal.mode) (reserved : t.journal.reserved = s.journal.reserved + jobReserve (some j))
    (ring : used t.journal ≤ max 1024 (used s.journal)) : Accounts c t s := by
  refine ⟨mode, fun _ hs => ⟨⟨?_, fun i k hk => ?_⟩, ring⟩⟩
  · have count := owed_job slot docks others
    rw [self, free, jobReserve_none, Nat.add_zero] at count
    rw [reserved, hs.reserved, count]
  · by_cases hi : i = slot
    · rw [hi, self] at hk
      cases hk
      exact fits
    · exact hs.jobs i k (others i hi ▸ hk)

/-- An accepted START_JOB reserves for its JOB_END, and appends it at once where the job ends at once (R109, R125). -/
theorem startJob_accounts {c : Prop} {s : State} {slot : SlotNo} {req : StartReq} (p : Port) (free : s.job slot = none)
    (room : reservationSize req.count ≤ s.freeSlots) : Accounts c (s.startJob slot (crewPortOf p) req) s := by
  have requested : (VanLaws.jobOf s p req).requested = req.count := (jobOf_same s p req).requested
  have fits := jobOf_fits s p req
  have self := startJob_job_self s p slot req
  have others : ∀ k, k ≠ slot → (s.startJob slot (crewPortOf p) req).job k = s.job k :=
    fun k hk => startJob_job_ne s (crewPortOf p) req hk
  have space := room_of_free room
  by_cases h : endsAtOnce (enteredStation s req) req
  · obtain ⟨rail, reserved, records, -⟩ := startJob_ended (s := s) h slot (crewPortOf p)
    have ended : (VanLaws.jobOf s p req).state = .ended := congrArg JobRecord.state (startedJob_ended h _)
    have size := jobEnd_slots_le fits.moved
    refine enteredJob_accounts free self others (fun d => by rw [dock_congr rail]) fits ?_ ?_ ?_
    · rw [startJob_ends (s := s) h, endJob_journal]
      rfl
    · rw [reserved, jobReserve_ended ended]
      rfl
    · have held : (s.startJob slot (crewPortOf p) req).journal.heldSlots
          = s.journal.heldSlots + (RecordBody.jobEnd (VanLaws.jobOf s p req).endRecord).slots := by
        rw [Journal.heldSlots, records, slotsOf_append]
        rfl
      rw [requested] at size
      unfold used at space ⊢
      rw [held, reserved]
      omega
  · obtain ⟨docks, journal, -⟩ := startJob_opened (s := s) h slot (crewPortOf p)
    have running : (VanLaws.jobOf s p req).state ≠ .ended := by
      rw [VanLaws.jobOf, startedJob_opened h, openedJob]
      dsimp only
      split_ifs <;> decide
    refine enteredJob_accounts free self others (fun d => ?_) fits ?_ ?_ ?_
    · rw [docks]
      split
      · exact marked_reserve ..
      · rfl
    · rw [journal]
    · rw [journal, jobReserve_open running, requested]
    · rw [journal]
      unfold used at space ⊢
      rw [← Nat.add_assoc]
      exact space

/-! ## The warm reset -/

theorem resetJob_held {s : State} {slot : SlotNo} (fits : ∀ i j, s.job i = some j → JobFits j) :
    (s.resetJob slot).journal.heldSlots ≤ s.journal.heldSlots + jobReserve (s.job slot) := by
  unfold State.resetJob
  split
  · exact Nat.le_add_right ..
  · next j held =>
    split
    · next isOpen =>
      rw [held, jobReserve_open ((isOpen_iff j).1 isOpen)]
      have size := jobEnd_slots_le (fits slot j held).moved
      show slotsOf (s.journal.records ++ [_]) ≤ _
      rw [slotsOf_append]
      exact Nat.add_le_add_left size _
    · exact Nat.le_add_right ..

@[simp] theorem resetJob_vans (s : State) (slot : SlotNo) : (s.resetJob slot).vans = s.vans := by
  unfold State.resetJob
  split
  · rfl
  · split <;> rfl

/-- The JOB_END records of a warm reset stay within the reservations of their jobs (R148). -/
theorem resetJobs_held {s : State} (fits : ∀ i j, s.job i = some j → JobFits j) (l : List SlotNo) :
    (l.foldl State.resetJob s).journal.heldSlots
      ≤ s.journal.heldSlots + (l.map (fun i => jobReserve (s.job i))).sum := by
  induction l generalizing s with
  | nil => exact Nat.le_refl _
  | cons i is ih =>
    have jobs : ∀ k, (s.resetJob i).job k = s.job k := job_congr (resetJob_vans s i)
    have first := resetJob_held (slot := i) fits
    have rest := ih (s := s.resetJob i) fun k j h => fits k j (jobs k ▸ h)
    simp only [jobs] at rest
    rw [List.foldl_cons, List.map_cons, List.sum_cons]
    omega

end Sys2Proof.Machine.LedgerLaws
end

section
/-! PROOFS. What the docks' reports and the returns make of the account, and how an event closes it (R34, R117, R134 to R136). -/

namespace Sys2Proof.Machine.LedgerLaws

open Sys2Proof.Machine.Laws RideLaws VanLaws JournalLaws

/-! ## Docks -/

/-- A dock fault ends the release on its dock, or takes the dock out of the open job that marked it (R34, R117, R122). -/
theorem dockFault_accounts {c : Prop} {s : State} (sound : c → s.jobsSound) (kind : DockFaultKind) (d : DockNo) :
    Accounts c (s.dockFault kind d) s := by
  have item : ∀ {n} (u : State), (s.dock d).state.jobNumber? = some n → u.vans = s.vans → Accounts c (u.faultItem n d) u :=
    fun u marked vans => faultItem_accounts (fun hc => (jobsSound_room (sound hc)).of_vans vans)
      (fun hc => (jobsSound_open (sound hc) marked).of_vans vans) d
  unfold State.dockFault
  cases h : (s.dock d).state <;> dsimp only
  case absent => exact .refl s
  case empty => exact (putDockState_accounts s d (by rw [h]; rfl)).written rfl rfl rfl
  case docked b => exact (putDockState_accounts s d (by rw [h]; rfl)).written rfl rfl rfl
  case outOfService b k => exact (putDockState_accounts s d (by rw [h]; rfl)).written rfl rfl rfl
  case held b k =>
    exact (loseHold_accounts ..).trans ((putDockState_accounts s d (by rw [h]; rfl)).written rfl rfl rfl)
  case unlocking b r =>
    refine endedRelease_accounts (d := d) (by rw [h]; rfl) ?_ (fun e he => ?_) (endLapsed_vans ..)
      (by rw [endLapsed_journal]; rfl) (by rw [endLapsed_journal]; rfl) (by rw [endLapsed_journal]; exact Nat.le_succ _)
    · rw [endLapsed_dock, resolveDock_dock, notify_dock, notify_dock, putDockState_dock_self]
      rfl
    · rw [endLapsed_dock, resolveDock_dock, notify_dock, notify_dock, putDockState_dock_ne _ _ he]
  case vanHeld b n =>
    refine .trans (item _ (by rw [h]; rfl) rfl) (.trans ?_ (putDockState_accounts s d (st := .outOfService b kind) (by rw [h]; rfl)))
    exact .of_same (fun _ => rfl) (fun _ => rfl) rfl
  case vanReserved n =>
    refine .trans (item _ (by rw [h]; rfl) rfl) ?_
    exact (putDockState_accounts s d (by rw [h]; rfl)).written rfl rfl rfl

theorem recordMissing_accounts {c : Prop} (s : State) (bike : Nat) (d : DockNo) : Accounts c (s.recordMissing bike d) s :=
  appendIfRoom_accounts ..

theorem censusState_isUnlocking (s : State) (i : CensusItem) :
    (s.censusState i).isUnlocking = (s.dock i.dock).state.isUnlocking := by
  have settled : ∀ found : Option DockedBike, (match found with
      | some b => DockState.docked b
      | none => DockState.empty).isUnlocking = false := by
    intro found
    cases found <;> rfl
  unfold State.censusState
  dsimp only
  generalize (s.dock i.dock).state = st
  cases st with
  | docked b =>
    dsimp only
    split
    · rfl
    · exact settled _
  | held b h =>
    dsimp only
    split
    · rfl
    · exact settled _
  | outOfService bike k =>
    cases bike with
    | none => rfl
    | some b =>
      dsimp only
      split <;> rfl
  | empty => exact settled _
  | absent => rfl
  | unlocking b r => rfl
  | vanHeld b n => rfl
  | vanReserved n => rfl

/-- A census item sets no release up and ends none (R18). -/
theorem censusItem_accounts {c : Prop} (s : State) (i : CensusItem) : Accounts c (s.censusItem i) s := by
  have missing : ∀ (found : Option DockedBike) (u : State),
      Accounts c (match found with
        | some b => u.recordMissing b.bike i.dock
        | none => u) u := by
    intro found u
    cases found with
    | none => exact .refl u
    | some b => exact recordMissing_accounts ..
  have corrected : Accounts c (s.putDock i.dock ⟨s.censusState i, true⟩) s :=
    putDock_accounts s i.dock (censusState_isUnlocking s i)
  unfold State.censusItem
  dsimp only
  split
  · exact .refl s
  · split
    · split
      · exact (loseHold_accounts ..).trans ((missing ..).trans corrected)
      all_goals exact (missing ..).trans corrected
    · exact corrected

theorem markFetched_accounts {c : Prop} (s : State) (d : DockNo) : Accounts c (s.markFetched d) s := by
  unfold State.markFetched
  split
  · next h => exact putDockState_accounts s d (by rw [h]; rfl)
  all_goals exact .refl s

theorem fetch_accounts {c : Prop} (s : State) (command : Command) : Accounts c (s.fetch command) s := by
  have opened : ∀ owner docks, Accounts c (s.openCommand owner docks) s :=
    fun _ _ => .of_same (fun _ => rfl) (fun _ => rfl) rfl
  cases command with
  | unlock d token => exact (markFetched_accounts ..).trans (opened ..)
  | batchUnlock number docks =>
    refine .trans (withJob_accounts fun slot j _ held => ?_) (opened (.job number) docks)
    exact setJob_accounts held rfl rfl fun _ fits => ⟨fits.window, fits.moved⟩
  | relock docks => exact .refl s
  | readToken d => exact .of_same (fun _ => rfl) (fun _ => rfl) rfl

/-! ## Returns -/

/-- A RIDE_END finds its two slots free (R41, R139). -/
theorem chargeRide_accounts {c : Prop} {s : State} (room : 2 ≤ s.freeSlots) (t : Token) (bike : Nat) (d : DockNo)
    (returnTime : Nat) (plan : Plan) (substituted : Bool) :
    Accounts c (s.chargeRide t bike d returnTime plan substituted).station s := by
  have recorded : ∀ (u : State) (f : RideEnd), u.rail = s.rail → u.vans = s.vans → u.journal = s.journal →
      Accounts c (u.append (.rideEnd f)) s := fun u f rail vans journal =>
    (append_accounts (by rw [freeSlots_congr journal]; exact room)).trans (.of_parts rail vans journal)
  unfold State.chargeRide
  dsimp only
  split
  · exact recorded (State.modifyCard _ _ _) _ rfl rfl rfl
  · exact recorded { s with rides := _ } _ rfl rfl rfl

theorem settle_accounts {c : Prop} (s : State) (t : Token) (bike : Nat) (d : DockNo) (returnTime : Nat) :
    Accounts c (s.settle t bike d returnTime).station s := by
  unfold State.settle
  dsimp only
  split
  · exact .refl s
  · split
    · next judged =>
      split
      · exact chargeRide_accounts judged.2 ..
      · exact .of_parts rfl rfl rfl
    · exact .of_parts rfl rfl rfl

theorem settle_vans (s : State) (t : Token) (bike : Nat) (d : DockNo) (returnTime : Nat) :
    (s.settle t bike d returnTime).station.vans = s.vans := by
  unfold State.settle State.chargeRide
  dsimp only
  split
  · rfl
  · split
    · split
      · split <;> rfl
      · rfl
    · rfl

theorem dockBike_accounts {c : Prop} {s : State} {d : DockNo} (was : (s.dock d).state.isUnlocking = false) (bike : Nat) :
    Accounts c (s.dockBike d bike) s := putDock_accounts s d was.symm

theorem setToken_accounts {c : Prop} (s : State) (d : DockNo) (flag : Bool) : Accounts c (s.setToken d flag) s :=
  putDockState_accounts s d (withToken_isUnlocking ..)

theorem clearToken_accounts {c : Prop} (s : State) (d : DockNo) : Accounts c (s.clearToken d) s :=
  putDock_accounts s d (withToken_isUnlocking ..)

theorem settleReturn_accounts {c : Prop} {s : State} {d : DockNo} (was : (s.dock d).state.isUnlocking = false) (t : Token)
    (bike : Nat) : Accounts c (s.settleReturn t d bike).station s := by
  have settled : Accounts c ((s.dockBike d bike).settle t bike d s.time.clock).station s :=
    (settle_accounts ..).trans (dockBike_accounts was bike)
  unfold State.settleReturn
  dsimp only
  split
  · exact (setToken_accounts ..).trans settled
  · exact settled
  · exact settled

theorem settleReturn_vans (s : State) (t : Token) (d : DockNo) (bike : Nat) : (s.settleReturn t d bike).station.vans = s.vans := by
  unfold State.settleReturn
  dsimp only
  split <;> exact settle_vans (s.dockBike d bike) ..

/-! ## The end of an event -/

/-- From `s` to `t`, over whole events and under a condition, the mode stays right, the account in order, and the ring is not
overfilled where the mode was right. -/
structure Audited (c : Prop) (t s : State) : Prop where
  mode : s.journal.modeRight → t.journal.modeRight
  kept : c → Booked s → Booked t ∧ (s.journal.modeRight → used t.journal ≤ max 1024 (used s.journal))

theorem Audited.trans {c : Prop} {t u s : State} (h1 : Audited c t u) (h2 : Audited c u s) : Audited c t s := by
  refine ⟨h1.mode ∘ h2.mode, fun hc hs => ?_⟩
  obtain ⟨hu, ring⟩ := h2.kept hc hs
  obtain ⟨ht, ring'⟩ := h1.kept hc hu
  refine ⟨ht, fun right => ?_⟩
  have first := ring right
  have second := ring' (h2.mode right)
  omega

/-- An event that leaves the journal, the UNLOCKING docks and the jobs. -/
theorem Audited.of_same {c : Prop} {t s : State} (docks : ∀ d, dockReserve (t.dock d) = dockReserve (s.dock d))
    (jobs : ∀ i, t.job i = s.job i) (journal : t.journal = s.journal) : Audited c t s := by
  refine ⟨fun h => journal ▸ h, fun hc hs => ?_⟩
  obtain ⟨ht, ring⟩ := (Accounts.of_same docks jobs journal).kept hc hs
  exact ⟨ht, fun _ => ring⟩

theorem Audited.of_parts {c : Prop} {t s : State} (rail : t.rail = s.rail) (vans : t.vans = s.vans)
    (journal : t.journal = s.journal) : Audited c t s :=
  .of_same (fun d => by rw [dock_congr rail]) (fun i => job_congr vans i) journal

theorem Audited.refl {c : Prop} (s : State) : Audited c s s := .of_parts rfl rfl rfl

theorem closeEvent_dock (u s : State) (d : DockNo) : (u.closeEvent s).dock d = u.dock d :=
  ClockLaws.settlesAs_dock (closeEvent_settlesAs u s) d

/-- The end of an event reckons the mode and writes neither the docks nor the jobs nor the slots. -/
theorem closeEvent_kept {u : State} (s : State) (h : Booked u) :
    Booked (u.closeEvent s) ∧ used (u.closeEvent s).journal = used u.journal := by
  have jobs := job_congr (closeEvent_vans u s)
  have owes := owed_same (fun d => congrArg dockReserve (closeEvent_dock u s d)) jobs
  refine ⟨⟨?_, fun i j hj => h.jobs i j (jobs i ▸ hj)⟩, ?_⟩
  · rw [closeEvent_journal, owes]
    exact h.reserved
  · rw [closeEvent_journal]
    rfl

theorem closeEvent_audited {c : Prop} {u s : State} (h : Accounts c u s) : Audited c (u.closeEvent s) s := by
  refine ⟨fun right => closeEvent_modeRight right h.mode, fun hc hs => ?_⟩
  obtain ⟨hu, ring⟩ := h.kept hc hs
  obtain ⟨ht, same⟩ := closeEvent_kept s hu
  exact ⟨ht, fun _ => same ▸ ring⟩

/-- What an owner makes of a request: the mode stands until the event ends, an event that does not act leaves the journal, and
in a station whose jobs are sound the account is kept. -/
structure Handles (x : Handled) (u : State) : Prop where
  mode : x.station.journal.mode = u.journal.mode
  quiet : x.acts = false → x.station.journal = u.journal
  kept : u.jobsSound → Booked u →
    Booked x.station ∧ (u.journal.modeRight → used x.station.journal ≤ max 1024 (used u.journal))

theorem Handles.refused (reason : RefusalReason) (u : State) : Handles (refuse reason u) u :=
  ⟨rfl, fun _ => rfl, fun _ hs => ⟨hs, fun _ => le_max_right ..⟩⟩

theorem Handles.accepted {u t : State} (body : AcceptBody) (h : Accounts u.jobsSound t u) : Handles (accept body t) u := by
  refine ⟨h.mode, nofun, fun sound hs => ?_⟩
  obtain ⟨ht, ring⟩ := h.kept sound hs
  exact ⟨ht, fun _ => ring⟩

/-- An accepted request that only reads, or writes outside the rail, the jobs and the journal. -/
theorem Handles.aside {u t : State} (body : AcceptBody) (rail : t.rail = u.rail) (vans : t.vans = u.vans)
    (journal : t.journal = u.journal) : Handles (accept body t) u := .accepted body (.of_parts rail vans journal)

theorem orRefuse_handles {α : Type} {judged : Except RefusalReason α} {u : State} {work : α → Handled}
    (h : ∀ x, judged = .ok x → Handles (work x) u) : Handles (orRefuse judged u work) u := by
  cases judged with
  | ok x => exact h x rfl
  | error reason => exact .refused reason u

/-- The end of a request's event writes neither the rail, nor the jobs, nor the journal before it closes. -/
theorem finishFrame_closes (p : Port) (first : Byte) (bytes : List Byte) (restarts : Bool) (x : Handled) (s : State) :
    ∃ v : State, v.rail = x.station.rail ∧ v.vans = x.station.vans ∧ v.journal = x.station.journal
      ∧ finishFrame p first bytes restarts x s = if x.acts then v.closeEvent s else v.closeQuiet s :=
  ⟨(x.station.afterAnswer p restarts x.reply).placeAnswer p ⟨first, tagOf bytes, x.reply⟩, by simp, by simp, by simp, rfl⟩

theorem finishFrame_audited {x : Handled} {s : State} {p : Port} {n : Nat} (h : Handles x (s.endRequest p n)) (first : Byte)
    (bytes : List Byte) (restarts : Bool) : Audited s.jobsSound (finishFrame p first bytes restarts x s) s := by
  obtain ⟨v, rail, vans, journal, finished⟩ := finishFrame_closes p first bytes restarts x s
  have booked : s.jobsSound → Booked s → Booked v ∧ (s.journal.modeRight → used v.journal ≤ max 1024 (used s.journal)) :=
    fun sound hs => by
      obtain ⟨hx, ring⟩ := h.kept sound ⟨hs.reserved, hs.jobs⟩
      exact ⟨((Accounts.of_parts (c := True) rail vans journal).kept trivial hx).1, journal ▸ ring⟩
  rw [finished]
  split
  · refine ⟨fun right => closeEvent_modeRight right ((congrArg Journal.mode journal).trans h.mode), fun sound hs => ?_⟩
    obtain ⟨hv, ring⟩ := booked sound hs
    obtain ⟨ht, same⟩ := closeEvent_kept s hv
    exact ⟨ht, same ▸ ring⟩
  · next quiet =>
    have stands : v.journal = s.journal := journal.trans (h.quiet (Bool.eq_false_iff.2 quiet))
    refine ⟨fun right => ?_, fun sound hs => ?_⟩
    · rw [closeQuiet_journal, stands]
      exact right
    · obtain ⟨hv, ring⟩ := booked sound hs
      exact ⟨⟨hv.reserved, hv.jobs⟩, ring⟩

/-- A frame at a deaf port, or one that finds the slot full, changes no record (R166, R170). -/
theorem takeFrame_audited {p : Port} {first : Byte} {bytes : List Byte} {restarts : Bool} {judge : State → Handled} {s : State}
    (h : Audited s.jobsSound (finishFrame p first bytes restarts (judge (s.endRequest p (bytes.length + 1))) s) s) :
    Audited s.jobsSound (takeFrame p first bytes restarts judge s) s := by
  unfold takeFrame
  split
  · exact .of_parts rfl rfl rfl
  · dsimp only
    split
    · exact .of_parts rfl rfl rfl
    · exact h

/-- A request keeps the account where its owner does. -/
theorem serve_audited {α : Type} {kind : ReqKind} {p : Port} {bytes : List Byte} {read : List Byte → Except RefusalReason α}
    {owner : α → State → Handled} {s : State} (h : ∀ req (u : State), Handles (owner req u) u) :
    Audited s.jobsSound (serve kind p bytes read owner s) s :=
  takeFrame_audited (finishFrame_audited (orRefuse_handles fun req _ => h req _) ..)

end Sys2Proof.Machine.LedgerLaws
end

section
/-! PROOFS. What every owner of a request makes of the account (R134 to R136). -/

namespace Sys2Proof.Machine.LedgerLaws

open Sys2Proof.Machine.Laws RideLaws VanLaws JournalLaws

/-! ## Releases and holds -/

/-- The dock of a release or a hold is not UNLOCKING: it is HELD for the card, or DOCKED (R29). -/
theorem releaseDock_idle {s : State} {c : CardEntry} {named : Option DockNo} {d : DockNo}
    (h : s.releaseDock c named = .ok d) : (s.dock d).state.isUnlocking = false := by
  unfold State.releaseDock at h
  split at h
  · split at h
    · next e _ isHeld =>
      cases h
      cases hst : (s.dock d).state <;> simp [hst, DockState.isHeld] at isHeld
      rfl
    · cases h
  · obtain ⟨b, hb⟩ := findDock_docked h
    rw [hb]
    rfl

theorem guarded_ok {α : Type} {checks : List (Bool × RefusalReason)} {judged : Except RefusalReason α} {x : α}
    (h : guarded checks judged = .ok x) : firstFailing checks = none ∧ judged = .ok x := by
  unfold guarded at h
  split at h
  · cases h
  · next passing => exact ⟨passing, h⟩

/-- A card that may release finds the journal out of RESERVE and an idle dock (R27, R29). -/
theorem judgeEntry_ok {s : State} {c : CardEntry} {named : Option DockNo} {d : DockNo} (h : s.judgeEntry c named = .ok d) :
    s.journal.mode ≠ .reserve ∧ (s.dock d).state.isUnlocking = false := by
  rw [judgeEntry_guarded] at h
  obtain ⟨passing, dock⟩ := guarded_ok h
  refine ⟨fun reserve => ?_, ?_⟩
  · simp only [entryChecks, firstFailing, reserve, decide_true, if_true] at passing
    split_ifs at passing
  · unfold dockAndRoom at dock
    split at dock
    · cases dock
    · next e found =>
      split at dock
      · cases dock
        exact releaseDock_idle found
      · cases dock

/-- An accepted release has passed the checks on its card's entry, or on the provisional one (R27, R28). -/
theorem judgeRelease_ok {s : State} {p : Port} {req : RideReq} {g : Grant} (h : s.judgeRelease p req = .ok g) :
    s.journal.mode ≠ .reserve ∧ (s.dock g.dock).state.isUnlocking = false := by
  have judged : ∃ c, s.judgeEntry c req.dock = .ok g.dock := by
    unfold State.judgeRelease at h
    split at h
    · cases h
    · split at h
      · cases h
      · split at h
        · cases h
        · split at h
          · next c _ =>
            split at h
            · next d judged =>
              cases h
              exact ⟨c, judged⟩
            · cases h
          · split at h
            · dsimp only at h
              split at h
              · cases h
              · next d judged =>
                split at h
                · cases h
                  exact ⟨_, judged⟩
                · cases h
            · cases h
  obtain ⟨c, judged⟩ := judged
  exact judgeEntry_ok judged

/-- An accepted release finds a free slot, since the mode it passed is not RESERVE (R26, R134). -/
theorem ownRelease_handles (p : Port) (req : RideReq) (u : State) : Handles (ownRelease p req u) u := by
  refine orRefuse_handles fun g judged => ?_
  obtain ⟨mode, idle⟩ := judgeRelease_ok judged
  refine ⟨rfl, nofun, fun _ hu => ?_⟩
  obtain ⟨booked, slots⟩ := grantRelease_booked (riderPortOf p) idle hu
  refine ⟨booked, fun right => ?_⟩
  have free := CardLaws.free_of_notReserve right mode
  have room := room_of_free (n := 1) (by omega : 1 ≤ u.journal.free)
  exact slots.le.trans room

theorem judgeHold_ok {s : State} {req : RideReq} {d : DockNo} (h : s.judgeHold req = .ok d) :
    ∃ b, (s.dock d).state = .docked b := by
  cases found : s.card req.card with
  | none =>
    simp only [State.judgeHold, found] at h
    split_ifs at h
  | some c =>
    simp only [State.judgeHold, found] at h
    split_ifs at h
    exact findDock_docked h

theorem ownHold_handles (p : Port) (req : RideReq) (u : State) : Handles (ownHold p req u) u := by
  refine orRefuse_handles fun d judged => .accepted _ ?_
  obtain ⟨b, hb⟩ := judgeHold_ok judged
  exact (putDockState_accounts u d (by rw [hb]; rfl)).written rfl rfl rfl

theorem ownHoldCancel_handles (p : Port) (card : Nat) (u : State) : Handles (ownHoldCancel p card u) u := by
  unfold ownHoldCancel
  split
  · exact .refused _ u
  · split
    · exact .refused _ u
    · split
      · next d _ _ b hold hst =>
        split
        · exact .accepted _ ((putDockState_accounts u d (by rw [hst]; rfl)).written rfl rfl rfl)
        · exact .refused _ u
      all_goals exact .refused _ u

/-! ## Cards, fares and faults -/

theorem ownQuote_handles (req : QuoteReq) (u : State) : Handles (ownQuote req u) u := by
  unfold ownQuote
  split
  · split
    · exact .refused _ u
    · split
      · exact .refused _ u
      · exact .aside _ rfl rfl rfl
  · exact .refused _ u

theorem ownTariffStage_handles (req : StagedSet) (u : State) : Handles (ownTariffStage req u) u := by
  unfold ownTariffStage
  split
  · exact .aside _ rfl rfl rfl
  · exact .refused _ u

theorem ownTopup_handles (req : TopupReq) (u : State) : Handles (ownTopup req u) u := by
  unfold ownTopup
  split
  · exact .refused _ u
  · split
    · exact .refused _ u
    · split_ifs
      case neg => exact .accepted _ ((appendIfRoom_accounts (State.modifyCard _ _ _) _).trans (.of_parts rfl rfl rfl))
      all_goals exact .refused _ u

theorem ownCardStatus_handles (query : Option Nat) (u : State) : Handles (ownCardStatus query u) u := by
  unfold ownCardStatus
  split
  · split
    · exact .refused _ u
    · exact .aside _ rfl rfl rfl
  · exact .aside _ rfl rfl rfl

theorem ownCardLoad_handles (req : LoadReq) (u : State) : Handles (ownCardLoad req u) u := by
  unfold ownCardLoad
  split_ifs
  · exact .refused _ u
  · exact .refused _ u
  · split
    · exact .aside _ rfl rfl rfl
    · split
      · exact .refused _ u
      · exact .aside _ rfl rfl rfl

theorem ownCardDrop_handles (card : Nat) (u : State) : Handles (ownCardDrop card u) u := by
  unfold ownCardDrop
  split
  · exact .refused _ u
  · split
    · exact ⟨rfl, fun _ => rfl, fun _ hs => ⟨hs, fun _ => le_max_right ..⟩⟩
    · exact .aside _ rfl rfl rfl

theorem ownReportFault_handles (p : Port) (req : ReportReq) (u : State) : Handles (ownReportFault p req u) u := by
  unfold ownReportFault
  split
  · refine orRefuse_handles fun bike _ => ?_
    split
    · exact .refused _ u
    · split
      · exact .refused _ u
      · exact .accepted _ (takeReport_accounts ..)
  · exact .refused _ u

theorem ownClearFault_handles (p : Port) (bike : Nat) (u : State) : Handles (ownClearFault p bike u) u := by
  unfold ownClearFault
  split
  · exact .refused _ u
  · exact .accepted _ ((appendIfRoom_accounts { u with faults := _ } _).trans (.of_parts rfl rfl rfl))

theorem ownFaultStatus_handles (query : FaultQuery) (u : State) : Handles (ownFaultStatus query u) u := by
  unfold ownFaultStatus
  split
  · split
    · exact .refused _ u
    · exact .aside _ rfl rfl rfl
  · exact .aside _ rfl rfl rfl

/-! ## Docks and returns -/

theorem ownDockRestore_handles (d : DockNo) (u : State) : Handles (ownDockRestore d u) u := by
  unfold ownDockRestore
  split
  · next bike k hst =>
    refine .accepted _ (.written (putDock_accounts u d ?_) rfl rfl rfl)
    rw [hst]
    cases bike <;> rfl
  all_goals exact .refused _ u

theorem ownDockStatus_handles (query : Option DockNo) (u : State) : Handles (ownDockStatus query u) u := by
  unfold ownDockStatus
  split <;> exact .aside _ rfl rfl rfl

theorem ownFetchCommand_handles (x : Unit) (u : State) : Handles (ownFetchCommand x u) u := by
  unfold ownFetchCommand
  split
  · exact .aside _ rfl rfl rfl
  · exact .accepted _ ((fetch_accounts ..).trans (.of_same (fun _ => rfl) (fun _ => rfl) rfl))

/-- REMOVED completes a release, counts for the open job that marked its dock, or is forced (R11 to R14, R116). -/
theorem ownRemoved_handles (req : RemovedReq) (u : State) : Handles (ownRemoved req u) u := by
  let d := req.dock
  unfold ownRemoved
  dsimp only
  cases hst : (u.dock req.dock).state
  case outOfService bike k =>
    cases bike with
    | none => exact .refused _ u
    | some b =>
      refine .accepted _ (.trans (putDockState_accounts (u.dropOpening d) d ?_) (.of_same (fun _ => rfl) (fun _ => rfl) rfl))
      rw [dropOpening_dock, hst]
      rfl
  case docked b => exact .accepted _ (forceRemoval_accounts b none (by rw [hst]; rfl))
  case held b hold => exact .accepted _ (forceRemoval_accounts b (some hold) (by rw [hst]; rfl))
  case unlocking b r => exact .accepted _ (completeRelease_accounts hst)
  case vanHeld b n =>
    refine .accepted _ (.trans (countRemoval_accounts ?_ ?_ d b) (.trans (putDockState_accounts (u.resolveDock (.job n) d) d ?_) ?_))
    · exact fun sound => (jobsSound_room sound).of_vans rfl
    · exact fun sound => (jobsSound_open sound (by rw [hst]; rfl)).of_vans rfl
    · rw [resolveDock_dock, hst]
      rfl
    · exact .of_same (fun _ => rfl) (fun _ => rfl) rfl
  all_goals exact .refused _ u

theorem reportDockFault_handles (kind : DockFaultKind) (d : DockNo) (u : State) : Handles (reportDockFault kind d u) u := by
  unfold reportDockFault
  split
  · exact .refused _ u
  · exact .accepted _ (dockFault_accounts id kind d)

theorem ownCensus_handles (req : CensusReq) (u : State) : Handles (ownCensus req u) u := by
  unfold ownCensus
  split
  · exact .accepted _ (foldl_accounts censusItem_accounts ..)
  · exact .refused _ u

/-- INSERTED settles its token, and counts for the open job that reserved its dock or fills around it (R40, R119 to R121). -/
theorem ownInserted_handles (req : ReturnReq) (u : State) : Handles (ownInserted req u) u := by
  let d := req.dock
  unfold ownInserted
  dsimp only
  cases hst : (u.dock req.dock).state
  case empty =>
    have idle : (u.dock d).state.isUnlocking = false := by rw [hst]; rfl
    dsimp only
    split
    · refine .accepted _ (.trans (countStray_accounts ?_ d req.bike) (dockBike_accounts idle req.bike))
      exact fun sound => (jobsSound_room sound).of_vans rfl
    · exact .accepted _ (settleReturn_accounts idle ..)
  case vanReserved n =>
    have idle : (u.dock d).state.isUnlocking = false := by rw [hst]; rfl
    have marked : (u.dock d).state.jobNumber? = some n := by rw [hst]; rfl
    dsimp only
    split
    · refine .accepted _ (.trans (countDelivery_accounts ?_ ?_ d req.bike) (dockBike_accounts idle req.bike))
      · exact fun sound => (jobsSound_room sound).of_vans rfl
      · exact fun sound => (jobsSound_open sound marked).of_vans rfl
    · next t _ =>
      have vans := settleReturn_vans u t d req.bike
      refine .accepted _ (.trans (remark_accounts ?_ ?_ d) (settleReturn_accounts idle t req.bike))
      · exact fun sound => (jobsSound_room sound).of_vans vans
      · exact fun sound => (jobsSound_open sound marked).of_vans vans
  case docked b =>
    have fault := dockFault_accounts (c := u.jobsSound) id .sensor d
    exact ⟨fault.mode, nofun, fun sound hu => ⟨(fault.kept sound hu).1, fun _ => (fault.kept sound hu).2⟩⟩
  all_goals exact .refused _ u

theorem ownTokenReport_handles (req : ReturnReq) (u : State) : Handles (ownTokenReport req u) u := by
  have waited : Accounts u.jobsSound u.endWait u := .of_same (fun _ => rfl) (fun _ => rfl) rfl
  unfold ownTokenReport
  dsimp only
  split
  · split
    · exact .refused _ u
    · split
      · split
        · exact .accepted _ (.trans (clearToken_accounts ..) (.trans (settle_accounts ..) waited))
        · exact .accepted _ (.trans (settle_accounts ..) waited)
        · exact .accepted _ (.trans (settle_accounts ..) waited)
      · exact .accepted _ (.trans (internalReport_accounts ..) (.trans (clearToken_accounts ..) waited))
  · exact .refused _ u

/-! ## Van jobs -/

theorem freeSlot_free {s : State} {slot : SlotNo} (h : s.freeSlot = some slot) : s.job slot = none := by
  unfold State.freeSlot at h
  exact Option.isNone_iff_eq_none.1 (List.find?_some h :)

/-- An accepted START_JOB takes a free place and finds its reservation free (R108). -/
theorem judgeStart_ok {s : State} {req : StartReq} {slot : SlotNo} (h : s.judgeStart req = .ok slot) :
    s.job slot = none ∧ reservationSize req.count ≤ s.freeSlots := by
  cases found : s.freeSlot with
  | none =>
    simp only [State.judgeStart, found] at h
    split_ifs at h
  | some free =>
    simp only [State.judgeStart, found] at h
    split_ifs at h with _ _ full
    cases h
    exact ⟨freeSlot_free found, by omega⟩

theorem ownStartJob_handles (p : Port) (req : StartReq) (u : State) : Handles (ownStartJob p req u) u := by
  refine orRefuse_handles fun slot judged => ?_
  obtain ⟨free, room⟩ := judgeStart_ok judged
  dsimp only
  split
  · exact .accepted _ (startJob_accounts p free room)
  · exact .refused _ u

theorem ownJobStatus_handles (p : Port) (number : Option Nat) (u : State) : Handles (ownJobStatus p number u) u := by
  unfold ownJobStatus
  split
  · exact orRefuse_handles fun _ _ => .aside _ rfl rfl rfl
  · exact .aside _ rfl rfl rfl

theorem namedJob_held {s : State} {p : Port} {number : Nat} {x : SlotNo × JobRecord} (h : s.namedJob p number = .ok x) :
    s.job x.1 = some x.2 := by
  unfold State.namedJob at h
  split at h
  · cases h
  · split at h
    · cases h
    · next held =>
      split_ifs at h
      cases h
      exact held

/-- A retired job had set nothing aside (R126). -/
theorem retire_accounts {c : Prop} {s : State} {slot : SlotNo} {j : JobRecord} (held : s.job slot = some j)
    (ended : j.state = .ended) : Accounts c (s.setJob slot none) s := by
  have others : ∀ k, k ≠ slot → (s.setJob slot none).job k = s.job k := fun k hk => setJob_job_ne s _ hk
  refine ⟨rfl, fun _ hs => ⟨⟨?_, fun i k hk => ?_⟩, le_max_right ..⟩⟩
  · have count := owed_job (t := s.setJob slot none) (s := s) slot (fun _ => rfl) others
    rw [setJob_job_self, held, jobReserve_ended ended, jobReserve_none] at count
    rw [setJob_journal, hs.reserved]
    omega
  · by_cases hi : i = slot
    · rw [hi, setJob_job_self] at hk
      cases hk
    · exact hs.jobs i k (others i hi ▸ hk)

theorem ownRetireJob_handles (p : Port) (number : Nat) (u : State) : Handles (ownRetireJob p number u) u := by
  refine orRefuse_handles fun x named => ?_
  split
  · exact .refused _ u
  · next closed =>
    exact .accepted _ (retire_accounts (namedJob_held named) (not_not.1 fun running => closed ((isOpen_iff x.2).2 running)))

theorem ownAbortJob_handles (p : Port) (number : Nat) (u : State) : Handles (ownAbortJob p number u) u := by
  refine orRefuse_handles fun x named => ?_
  split
  · next running => exact .accepted _ (cutJob_accounts (namedJob_held named) (fun _ => (isOpen_iff x.2).1 running) _)
  · exact .refused _ u

/-! ## The timebase and the journal -/

theorem ownClockSet_handles (new : Nat) (u : State) : Handles (ownClockSet new u) u :=
  .accepted _ ((appendIfRoom_accounts { u with time := _ } _).trans (.of_parts rfl rfl rfl))

theorem ownSetMode_handles (mode : StationMode) (u : State) : Handles (ownSetMode mode u) u := by
  unfold ownSetMode
  split <;> exact .aside _ rfl rfl rfl

/-- A CONFIGURE that changes the segments is refused while a dock is UNLOCKING (R157). -/
theorem judgeConfigure_idle {s : State} {req : ConfigureReq} (h : s.judgeConfigure req = none)
    (changed : (req.apply s.time.config).segments ≠ s.time.config.segments) (d : DockNo) :
    (s.dock d).state.isUnlocking = false := by
  have quiet : s.busy = false := by
    unfold State.judgeConfigure at h
    dsimp only at h
    cases sizes : req.segments with
    | none =>
      rw [ConfigureReq.apply, sizes] at changed
      exact absurd rfl changed
    | some l =>
      rw [ConfigureReq.apply, sizes] at changed
      have differs : l ≠ s.time.config.segments := changed
      rw [sizes] at h
      simp only [differs, ne_eq, not_false_eq_true, decide_true, Bool.true_and] at h
      split_ifs at h with _ busy
      · exact Bool.eq_false_iff.2 busy
  unfold State.busy at quiet
  simp only [Bool.or_eq_false_iff, List.any_eq_false] at quiet
  exact Bool.eq_false_iff.2 (quiet.2 d (mem_allDocks d))

theorem resizeDock_idle (before after : Nat) (d : DockNo) {x : Dock} (h : x.state.isUnlocking = false) :
    (resizeDock before after d x).state.isUnlocking = false := by
  unfold resizeDock
  split_ifs
  · rfl
  · rfl
  · exact h

theorem configure_accounts {c : Prop} {s : State} {req : ConfigureReq} (h : s.judgeConfigure req = none) :
    Accounts c (s.configure req) s := by
  unfold State.configure
  dsimp only
  split
  · exact .of_parts rfl rfl rfl
  · next changed =>
    have idle := judgeConfigure_idle h changed
    have resized : ∀ before after (u : State), u.rail = s.rail.resize before after →
        ∀ d, dockReserve (u.dock d) = dockReserve (s.dock d) := fun before after u rail d => by
      have read : u.dock d = resizeDock before after d (s.dock d) := by
        rw [State.dock, rail]
        exact mapDocks_get ..
      rw [read, dockReserve_none (resizeDock_idle _ _ _ (idle d)), dockReserve_none (idle d)]
    split
    · exact .of_same (resized _ _ _ rfl) (fun _ => rfl) rfl
    · exact .of_same (resized _ _ _ rfl) (fun _ => rfl) rfl

theorem ownConfigure_handles (req : ConfigureReq) (u : State) : Handles (ownConfigure req u) u := by
  unfold ownConfigure
  split
  · exact .refused _ u
  · next passing => exact .accepted _ (configure_accounts passing)

theorem ownJournalRead_handles (req : ReadReq) (u : State) : Handles (ownJournalRead req u) u := by
  unfold ownJournalRead
  split
  · exact .refused _ u
  · exact .aside _ rfl rfl rfl

/-- Records freed free their slots (R144). -/
theorem release_accounts {c : Prop} (s : State) (through : Nat) : Accounts c (s.release through) s := by
  have held : (s.release through).journal.heldSlots ≤ s.journal.heldSlots :=
    List.Sublist.sum_le_sum (List.filter_sublist.map Record.slots) fun _ _ => Nat.zero_le _
  refine ⟨rfl, fun _ hs => ⟨⟨hs.reserved, hs.jobs⟩, ?_⟩⟩
  exact (Nat.add_le_add_right held _).trans (le_max_right ..)

theorem ownJournalRelease_handles (through : Nat) (u : State) : Handles (ownJournalRelease through u) u := by
  unfold ownJournalRelease
  split
  · exact .refused _ u
  · split
    · exact .aside _ rfl rfl rfl
    · exact .accepted _ (release_accounts ..)

end Sys2Proof.Machine.LedgerLaws
end

section
/-! PROOFS. What every command makes of the account, and that every step keeps the mode, the reservation count and Law 1 (R134 to
R136). -/

namespace Sys2Proof.Machine.LedgerLaws

open Sys2Proof.Machine.Laws RideLaws VanLaws JournalLaws

/-! ## The events outside requests -/

theorem loseLink_accounts {c : Prop} (s : State) : Accounts c s.loseLink s := by
  unfold State.loseLink
  split <;> exact .of_parts rfl rfl rfl

theorem holderWork_accounts {c : Prop} (s : State) (holder : TickHolder) : Accounts c (s.holderWork holder) s := by
  cases holder with
  | docks => exact foldl_accounts tickDock_accounts ..
  | vans => exact foldl_accounts tickJob_accounts ..
  | fares =>
    show Accounts c s.switchTariff s
    unfold State.switchTariff
    split <;> exact .of_parts rfl rfl rfl
  | stale =>
    show Accounts c s.tickStale s
    unfold State.tickStale
    dsimp only
    split
    · exact (loseLink_accounts _).trans (.of_parts rfl rfl rfl)
    · exact .of_parts rfl rfl rfl

theorem takeTick_audited {c : Prop} (s : State) (holder : TickHolder) : Audited c (s.takeTick holder) s := by
  unfold State.takeTick
  split
  · exact closeEvent_audited ((holderWork_accounts ..).trans (.of_parts rfl rfl rfl))
  · exact .refl s

theorem takeTicks_audited {c : Prop} (l : List TickHolder) (s : State) : Audited c (l.foldl State.takeTick s) s :=
  foldl_invariant State.takeTick (fun u => Audited c u s) (fun u x hu => (takeTick_audited u x).trans hu) l s (.refl s)

theorem countSecond_accounts {c : Prop} (s : State) : Accounts c s.countSecond s := by
  unfold State.countSecond
  split_ifs <;> exact .of_parts rfl rfl rfl

theorem dockExpiry_audited {c : Prop} (s : State) (d : DockNo) : Audited c (s.dockExpiry d) s := by
  unfold State.dockExpiry
  split
  · exact takeTick_audited ..
  · exact closeEvent_audited (tickDock_accounts s d)

theorem sweep_audited {c : Prop} (s : State) : Audited c (s.sweep.reckonLines s) s := by
  have docks : ∀ d, (s.sweep.reckonLines s).dock d = s.dock d := fun d => by
    rw [reckonLines_dock]
    rcases sweep_eq s with ⟨_, e⟩ | ⟨_, _, e, _⟩
    · rw [e]
    · rw [e]
      rfl
  exact .of_same (fun d => congrArg dockReserve (docks d)) (job_congr (sweep_vans s)) (sweep_journal s)

/-! ## Resets -/

/-- A station without docks, jobs and records has nothing set aside. -/
theorem cleared_audited {c : Prop} {t : State} (s : State) (rail : t.rail = State.reset.rail) (vans : t.vans = State.reset.vans)
    (journal : t.journal = State.reset.journal) : Audited c t s := by
  have idle : ∀ d, dockReserve (t.dock d) = 0 := fun d => by
    rw [dock_congr rail]
    exact dockReserve_none (by simp [State.dock, State.reset, DockState.isUnlocking])
  have empty : ∀ i, t.job i = none := fun i => by
    rw [job_congr vans]
    simp [State.job, State.reset]
  refine ⟨fun _ => by rw [journal]; rfl, fun _ _ => ⟨⟨?_, fun i j hj => ?_⟩, fun _ => ?_⟩⟩
  · rw [journal]
    simp [owed, idle, empty, jobReserve, State.reset]
  · rw [empty i] at hj
    cases hj
  · rw [journal]
    exact Nat.zero_le _

theorem factoryClear_audited (p : Port) (bytes : List Byte) (s : State) :
    Audited s.jobsSound (serve .factoryClear p bytes readEmpty ownFactoryClear s) s := by
  refine takeFrame_audited ?_
  unfold orRefuse
  split
  · obtain ⟨v, rail, vans, journal, finished⟩ := finishFrame_closes p ReqKind.factoryClear.code bytes
      (ReqKind.factoryClear != .factoryClear) (ownFactoryClear () (s.endRequest p (bytes.length + 1))) s
    rw [finished]
    exact cleared_audited s rail vans journal
  · exact finishFrame_audited (.refused _ _) ..

/-- The JOB_END records of a warm reset take no more than the reservations it gives up (R148). -/
theorem warmRecords_used {s : State} (hs : Booked s) : used s.warmRecords.journal ≤ used s.journal := by
  let freed := s.unreserve (s.countDocks (fun x => x.state.isUnlocking))
  have jobs : ∀ i, freed.job i = s.job i := fun _ => rfl
  have walked := resetJobs_held (s := freed) hs.jobs allSlots
  simp only [jobs] at walked
  have reserved : (allSlots.map (fun i => jobReserve (s.job i))).sum ≤ s.journal.reserved := by
    rw [hs.reserved, allSlots, ← Fin.sum_univ_def]
    exact Nat.le_add_left ..
  calc used s.warmRecords.journal = (allSlots.foldl State.resetJob freed).journal.heldSlots := by
        unfold State.warmRecords
        rfl
    _ ≤ s.journal.heldSlots + (allSlots.map (fun i => jobReserve (s.job i))).sum := walked
    _ ≤ used s.journal := Nat.add_le_add_left reserved _

/-- A warm reset leaves no release and no job (R23, R128). -/
theorem warmRecords_audited {c : Prop} (s : State) : Audited c s.warmRecords s := by
  have idle : ∀ d, dockReserve (s.warmRecords.dock d) = 0 := fun d => by
    have read : s.warmRecords.dock d = warmDock _ := mapDocks_get ..
    rw [read]
    refine dockReserve_none ?_
    unfold warmDock
    dsimp only
    split <;> rfl
  have empty : ∀ i, s.warmRecords.job i = none := fun i => Vector.getElem_replicate ..
  have reserved : s.warmRecords.journal.reserved = 0 := by
    unfold State.warmRecords
    rfl
  have mode : s.warmRecords.journal.modeRight := by
    unfold State.warmRecords
    rfl
  refine ⟨fun _ => mode, fun _ hs => ⟨⟨?_, fun i j hj => ?_⟩, fun _ => ?_⟩⟩
  · rw [reserved]
    simp only [owed, idle, empty, jobReserve_none, Finset.sum_const_zero, Nat.add_zero]
  · rw [empty i] at hj
    cases hj
  · exact (warmRecords_used hs).trans (le_max_right ..)

/-! ## Every command -/

/-- Where a command answers a next state, the account is kept. -/
abbrev NextAudited (s : State) : Host.Outcome State Fault Refusal → Prop := NextHas (fun t => Audited s.jobsSound t s)

/-- A command that acts under a condition, or changes nothing. -/
theorem ite_audited {c : Prop} [Decidable c] {s u : State} (h : Audited s.jobsSound u s) :
    NextAudited s (if c then .next u else .next s) := .ite (.next h) (.next (.refl s))

theorem execAnswerRead_audited (p : Port) (clocked : Nat) (s : State) : NextAudited s (execAnswerRead p clocked s) := by
  refine .ite (.next (.of_parts rfl rfl rfl)) ?_
  split <;> exact .next (.of_parts rfl rfl rfl)

theorem execTick_audited (takers : List TickHolder) (s : State) : NextAudited s (execTick takers s) := by
  refine .ite (.next ?_) (.next ?_)
  · unfold State.countSecond
    split_ifs <;> exact .of_parts rfl rfl rfl
  · refine (takeTicks_audited ..).trans (.trans (closeEvent_audited ?_) (takeTicks_audited allHolders s))
    exact (countSecond_accounts _).written rfl rfl rfl

theorem execVanWindowExpiry_audited (slot : SlotNo) (s : State) : NextAudited s (execVanWindowExpiry slot s) := by
  refine ite_audited ?_
  split
  · exact takeTick_audited ..
  · exact closeEvent_audited (tickJob_accounts s slot)

theorem execStaleTimerExpiry_audited (s : State) : NextAudited s (execStaleTimerExpiry s) := by
  refine ite_audited ?_
  split
  · exact closeEvent_audited (loseLink_accounts s)
  · exact takeTick_audited ..

theorem execResetHold_audited (cause : HoldCause) (underWay : List Port) (s : State) :
    NextAudited s (execResetHold cause underWay s) :=
  .next (.of_parts (foldl_keeps State.spoil State.rail (fun _ _ => rfl) underWay _)
    (foldl_keeps State.spoil State.vans (fun _ _ => rfl) underWay _)
    (foldl_keeps State.spoil State.journal (fun _ _ => rfl) underWay _))

theorem execWarmReset_audited (s : State) : NextAudited s (execWarmReset s) := by
  refine ite_audited (.trans (u := s.warmRecords) ?_ (warmRecords_audited s))
  exact .of_parts rfl rfl rfl

theorem execColdReset_audited (s : State) : NextAudited s (execColdReset s) := by
  refine ite_audited (cleared_audited s ?_ ?_ ?_) <;> rfl

/-- Every command keeps the account, by what its owner or its event makes of it. -/
theorem exec_audited (i : Instr) (s : State) : NextAudited s (exec i s) := by
  cases i with
  | release p bytes => exact .next (serve_audited (ownRelease_handles p))
  | hold p bytes => exact .next (serve_audited (ownHold_handles p))
  | holdCancel p bytes => exact .next (serve_audited (ownHoldCancel_handles p))
  | quote p bytes => exact .next (serve_audited ownQuote_handles)
  | topup p bytes => exact .next (serve_audited ownTopup_handles)
  | cardStatus p bytes => exact .next (serve_audited ownCardStatus_handles)
  | reportFault p bytes => exact .next (serve_audited (ownReportFault_handles p))
  | clearFault p bytes => exact .next (serve_audited (ownClearFault_handles p))
  | dockRestore p bytes => exact .next (serve_audited ownDockRestore_handles)
  | faultStatus p bytes => exact .next (serve_audited ownFaultStatus_handles)
  | fetchCommand p bytes => exact .next (serve_audited ownFetchCommand_handles)
  | inserted p bytes => exact .next (serve_audited ownInserted_handles)
  | removed p bytes => exact .next (serve_audited ownRemoved_handles)
  | lockJam p bytes => exact .next (serve_audited (reportDockFault_handles .lockJam))
  | sensorFault p bytes => exact .next (serve_audited fun (req : SensorReq) => reportDockFault_handles req.fault req.dock)
  | census p bytes => exact .next (serve_audited ownCensus_handles)
  | tokenReport p bytes => exact .next (serve_audited ownTokenReport_handles)
  | startJob p bytes => exact .next (serve_audited (ownStartJob_handles p))
  | jobStatus p bytes => exact .next (serve_audited (ownJobStatus_handles p))
  | retireJob p bytes => exact .next (serve_audited (ownRetireJob_handles p))
  | abortJob p bytes => exact .next (serve_audited (ownAbortJob_handles p))
  | configure p bytes => exact .next (serve_audited ownConfigure_handles)
  | clockSet p bytes => exact .next (serve_audited ownClockSet_handles)
  | setMode p bytes => exact .next (serve_audited ownSetMode_handles)
  | cardLoad p bytes => exact .next (serve_audited ownCardLoad_handles)
  | cardDrop p bytes => exact .next (serve_audited ownCardDrop_handles)
  | tariffStage p bytes => exact .next (serve_audited ownTariffStage_handles)
  | journalRead p bytes => exact .next (serve_audited ownJournalRead_handles)
  | journalRelease p bytes => exact .next (serve_audited ownJournalRelease_handles)
  | factoryClear p bytes => exact .next (factoryClear_audited p bytes s)
  | dockStatus p bytes => exact .next (serve_audited ownDockStatus_handles)
  | stationStatus p bytes => exact .next (serve_audited fun _ _ => .aside _ rfl rfl rfl)
  | readNotices p bytes => exact .next (serve_audited fun _ _ => .aside _ rfl rfl rfl)
  | setNoticeEnables p bytes => exact .next (serve_audited fun _ _ => .aside _ rfl rfl rfl)
  | unknownRequest p kind bytes =>
    exact .ite (.next (takeFrame_audited (finishFrame_audited (.refused _ _) ..))) (.refused _)
  | answerRead p clocked => exact execAnswerRead_audited p clocked s
  | tick takers => exact execTick_audited takers s
  | holdExpiry d => exact ite_audited (dockExpiry_audited s d)
  | unlockWindowExpiry d => exact ite_audited (dockExpiry_audited s d)
  | vanWindowExpiry slot => exact execVanWindowExpiry_audited slot s
  | staleTimerExpiry => exact execStaleTimerExpiry_audited s
  | tariffSwitch => exact ite_audited (takeTick_audited ..)
  | resettlementSweep => exact .ite (.next (.refl s)) (.next (sweep_audited s))
  | resetHold cause underWay => exact execResetHold_audited cause underWay s
  | retentionLoss => exact ite_audited (.of_parts rfl rfl rfl)
  | warmReset => exact execWarmReset_audited s
  | coldReset => exact execColdReset_audited s
  | selectDuringHold p => exact ite_audited (.of_parts rfl rfl rfl)
  | spoiledTransferEnd p => exact ite_audited (.of_parts rfl rfl rfl)

theorem step_audited {s t : State} (e : step s = .next t) : Audited s.jobsSound t s := by
  unfold step at e
  split at e
  · exact NextHas.next (P := fun t => Audited s.jobsSound t s) (.refl s) t e
  · next c cs _ =>
    obtain ⟨mode, kept⟩ := exec_audited c { s with pending := cs } t e
    exact ⟨mode, fun sound hs => kept sound ⟨hs.reserved, hs.jobs⟩⟩

/-! ## The mode, the reservation count and Law 1 -/

theorem modeOfFree_bands (n : Nat) : (n ≤ 128 → modeOfFree n = .reserve) ∧ (129 ≤ n → n ≤ 256 → modeOfFree n = .tight)
    ∧ (257 ≤ n → modeOfFree n = .normal) := by
  unfold modeOfFree
  refine ⟨fun h => ?_, fun above h => ?_, fun h => ?_⟩
  · rw [if_neg (by omega), if_neg (by omega)]
  · rw [if_neg (by omega), if_pos above]
  · rw [if_pos h]

theorem booked_of_sound {s : State} (sound : s.jobsSound) (right : s.reservationsRight) : Booked s :=
  ⟨(reservationsRight_iff s).1 right, fun _ _ hj => jobsSound_fits sound hj⟩

/-- Settles O53: the end of an event reckons the mode, and each command changes the reservation count with what docks and jobs
have set aside, within the ring. -/
theorem stepKeepsModeRight : Obligations.StepKeepsModeRight := by
  unfold Obligations.StepKeepsModeRight
  refine ⟨modeOfFree_bands, fun s t right e => (step_audited e).mode right, fun s t sound right e => ?_,
    fun s t sound right mode within e => ?_⟩
  · exact (reservationsRight_iff t).2 ((step_audited e).kept sound (booked_of_sound sound right)).1.reserved
  · have ring := ((step_audited e).kept sound (booked_of_sound sound right)).2 mode
    exact ring.trans (max_le (Nat.le_refl _) within)

end Sys2Proof.Machine.LedgerLaws
end

section
/-! PROOFS. JOURNAL_READ and JOURNAL_RELEASE settled (R142 to R144). -/

namespace Sys2Proof.Machine.JournalLaws

open Sys2Proof.Machine.Laws RideLaws

/-- A request that its owner accepts with the station as it was. -/
theorem serve_informs {α : Type} {s : State} {kind : ReqKind} {p : Port} {bytes : List Byte}
    {read : List Byte → Except RefusalReason α} {req : α} (h : s.takes kind p bytes read req)
    {owner : α → State → Handled} {body : AcceptBody} (hk : (kind != .factoryClear) = true)
    (ho : owner req (s.endRequest p (bytes.length + 1)) = accept body (s.endRequest p (bytes.length + 1))) :
    (serve kind p bytes read owner s).answered p kind.code bytes (.accept body)
      ∧ (serve kind p bytes read owner s).informs s p := by
  rw [serve_takes h, ho, hk]
  exact finish_inform ..

/-! ## JOURNAL_READ -/

/-- A from-sequence that no held record bears begins no read (R142). -/
theorem from_outside {j : Journal} {n : Nat} (h : ∀ r ∈ j.records, r.seq ≠ n) : j.from (some n) = none := by
  refine if_neg fun held => ?_
  obtain ⟨r, mem, bears⟩ := List.any_eq_true.1 held
  exact h r mem (by simpa using bears)

/-- A read begins at the record that bears its from-sequence, or at the oldest (R142). -/
theorem from_split {j : Journal} {start : Option Nat} {before rest : List Record} (split : j.records = before ++ rest)
    (oldest : start = none → before = [])
    (first : ∀ n, start = some n → (∀ r ∈ before, r.seq ≠ n) ∧ ∃ r, rest.head? = some r ∧ r.seq = n) :
    j.from start = some rest := by
  cases start with
  | none => rw [Journal.from, split, oldest rfl, List.nil_append]
  | some n =>
    obtain ⟨earlier, r, head, bears⟩ := first n rfl
    obtain ⟨rs, rfl⟩ : ∃ rs, rest = r :: rs := ⟨rest.tail, (List.cons_head?_tail head).symm⟩
    have held : j.records.any (fun r => r.seq == n) = true :=
      List.any_eq_true.2 ⟨r, by rw [split]; exact List.mem_append_right _ List.mem_cons_self, by simp [bears]⟩
    rw [Journal.from, if_pos held, split, List.dropWhile_append_of_pos fun x hx => by simpa using earlier x hx]
    rw [List.dropWhile_cons_of_neg (by simp [bears])]

/-- The bytes that a run of records takes in an answer. -/
def recordBytes (l : List Record) : Nat := (l.map (fun r => r.bytes.length)).sum

/-- The records carried stand in order from the start, fill the room at most, and leave none out that would fit (R143). -/
theorem fitting_prefix (room : Nat) (l : List Record) :
    ∃ later, l = fitting room l ++ later ∧ recordBytes (fitting room l) ≤ room
      ∧ ∀ r after, later = r :: after → room < recordBytes (fitting room l) + r.bytes.length := by
  induction l generalizing room with
  | nil => exact ⟨[], rfl, Nat.zero_le _, nofun⟩
  | cons r rs ih =>
    rw [fitting]
    split
    · next fits =>
      obtain ⟨later, split, within, full⟩ := ih (room - r.bytes.length)
      have bytes : recordBytes (r :: fitting (room - r.bytes.length) rs)
          = r.bytes.length + recordBytes (fitting (room - r.bytes.length) rs) := by
        simp only [recordBytes, List.map_cons, List.sum_cons]
      refine ⟨later, by rw [List.cons_append, ← split], by omega, fun x after h => ?_⟩
      have := full x after h
      omega
    · next tooLong =>
      refine ⟨r :: rs, rfl, Nat.zero_le _, fun x after h => ?_⟩
      cases h
      exact (Nat.lt_of_not_le tooLong).trans_le (Nat.le_add_left ..)

/-- The records a read carries from those it begins at: the room they find and the asked count stop them (R142, R143). -/
theorem carried_prefix (room limit : Nat) (rest : List Record) :
    let carried := fitting room (rest.take limit)
    ∃ later, rest = carried ++ later ∧ carried.length ≤ limit ∧ recordBytes carried ≤ room
      ∧ ∀ r after, later = r :: after → carried.length = limit ∨ room < recordBytes carried + r.bytes.length := by
  intro carried
  obtain ⟨left, split, within, full⟩ := fitting_prefix room (rest.take limit)
  have count : carried.length + left.length = min limit rest.length := by
    rw [← List.length_append, ← split, List.length_take]
  refine ⟨left ++ rest.drop limit, ?_, by omega, within, fun r after h => ?_⟩
  · rw [← List.append_assoc, ← split, List.take_append_drop]
  · cases left with
    | cons x xs =>
      rw [List.cons_append, List.cons.injEq] at h
      exact .inr (full r xs (by rw [h.1]))
    | nil =>
      rw [List.nil_append] at h
      have more := congrArg List.length h
      rw [List.length_drop, List.length_cons] at more
      rw [List.length_nil] at count
      exact .inl (by omega)

theorem ownJournalRead_refused {s : State} {req : ReadReq} (h : s.journal.from req.start = none) :
    ownJournalRead req s = refuse .outOfRange s := by
  rw [ownJournalRead, h]

theorem ownJournalRead_accepted {s : State} {req : ReadReq} {rest later : List Record}
    (h : s.journal.from req.start = some rest) (carries : rest = fitting recordRoom (rest.take req.limit) ++ later) :
    ownJournalRead req s
      = accept (.journal (fitting recordRoom (rest.take req.limit)) s.journal.lastSeq s.journal.marker
          s.journal.records.length (decide (later ≠ []))) s := by
  have more : decide ((fitting recordRoom (rest.take req.limit)).length < rest.length) = decide (later ≠ []) := by
    have := congrArg List.length carries
    rw [List.length_append] at this
    rw [decide_eq_decide, ← List.length_pos_iff]
    omega
  rw [← more, ownJournalRead, h]

/-- Settles O38: the read begins where its from-sequence stands, and carries the records that fit. -/
theorem journalReadCarriesHeldRecords : Obligations.JournalReadCarriesHeldRecords := by
  unfold Obligations.JournalReadCarriesHeldRecords
  intro s p bytes req h
  let u := s.endRequest p (bytes.length + 1)
  refine ⟨fun n start outside => ⟨_, rfl, serve_refused h (ownJournalRead_refused ?_)⟩,
    fun before rest split oldest first => ?_⟩
  · rw [start]
    exact from_outside outside
  · obtain ⟨later, carries, count, within, full⟩ := carried_prefix recordRoom req.limit rest
    obtain ⟨answered, informs⟩ :=
      serve_informs h rfl (ownJournalRead_accepted (s := u) (from_split (j := s.journal) split oldest first) carries)
    have room : recordRoom = 485 := rfl
    unfold recordBytes at within full
    refine ⟨_, _, later, rfl, carries, answered, informs, count, by omega, fun r after hr => ?_⟩
    rcases full r after hr with limit | past
    · exact .inl limit
    · exact .inr (by omega)

/-! ## JOURNAL_RELEASE -/

theorem ownJournalRelease_beyond {s : State} {through : Nat} (h : s.journal.nextSeq - 1 < through) :
    ownJournalRelease through s = refuse .outOfRange s := if_pos h

theorem ownJournalRelease_released {s : State} {through : Nat} (held : through ≤ s.journal.nextSeq - 1)
    (below : through ≤ s.journal.marker) :
    ownJournalRelease through s = accept (.journalReleased 0 0 s.journal.marker s.freeSlots s.journal.mode) s :=
  (if_neg (Nat.not_lt.2 held)).trans (if_pos below)

theorem ownJournalRelease_frees {s : State} {through : Nat} (held : through ≤ s.journal.nextSeq - 1)
    (above : s.journal.marker < through) :
    ownJournalRelease through s
      = accept (.journalReleased (s.journal.freed through).length (slotsOf (s.journal.freed through)) through
          (s.release through).freeSlots (modeOfFree (s.release through).freeSlots)) (s.release through) :=
  (if_neg (Nat.not_lt.2 held)).trans (if_neg (Nat.not_le.2 above))

/-- The free-slot count does not read the mode (R135). -/
theorem endsAs_freeSlots {t u : State} {p : Port} (h : t.endsAs u p) : t.freeSlots = u.freeSlots :=
  (congrArg State.freeSlots h.1 :)

/-- The station compared with may be written with the journal and the cards that the event left. -/
theorem endsAs_parts {t u : State} {p : Port} (h : t.endsAs u p) :
    t.endsAs { u with journal := t.journal, cards := t.cards } p := by
  have journal : t.journal = { u.journal with mode := t.journal.mode } := (congrArg State.journal h.1 :)
  rw [journal, endsAs_cards h]
  exact h

/-- Settles O39, by where its through-sequence stands to the last number and the marker. -/
theorem journalReleaseFreesOldest : Obligations.JournalReleaseFreesOldest := by
  unfold Obligations.JournalReleaseFreesOldest
  intro s p bytes through h
  let u := s.endRequest p (bytes.length + 1)
  refine ⟨fun beyond => ⟨_, rfl, serve_refused h (ownJournalRelease_beyond beyond)⟩, fun held below => ⟨_, rfl, ?_⟩,
    fun held above => ?_⟩
  · exact serve_informs h rfl (ownJournalRelease_released (s := u) held below)
  · intro gone
    obtain ⟨answered, ends, kept, -⟩ :=
      serve_accepted h rfl (ownJournalRelease_frees (s := u) held above) (.of_ports rfl)
    rw [← endsAs_freeSlots ends] at answered
    exact ⟨_, rfl, answered, endsAs_records ends, (congrArg (fun v => v.journal.marker) ends.1 :),
      (congrArg (fun v => v.journal.nextSeq) ends.1 :), (endsAs_reserved ends :), endsAs_cards ends,
      endsAs_congr (endsAs_parts ends) rfl, kept⟩

end Sys2Proof.Machine.JournalLaws
end

section
/-! PROOFS. CLOCK_SET and SET_MODE (R151, R155). -/

namespace Sys2Proof.Machine.ClockLaws

open Sys2Proof.Machine.Laws RideLaws

/-- A record of one slot that names no card, appended where a slot is free, as the statements spell it, whatever the port
units (R137, R139). -/
theorem appendIfRoom_spelled (s : State) (units : PortUnits) {body : RecordBody} (slots : body.slots = 1)
    (noCard : body.card? = none) :
    let v := if 1 ≤ s.freeSlots then s.withRecord body else s
    v = { State.appendIfRoom body { s with ports := units } with ports := v.ports } := by
  intro v
  let found : State := { s with ports := units }
  by_cases free : 1 ≤ s.freeSlots
  · have cards : (found.append body).cards = s.cards := by rw [append_cards, noCard]
    rw [appendIfRoom_of_room (s := found) (by rwa [slots])]
    simp only [v, if_pos free]
    exact state_eq rfl rfl rfl rfl cards.symm rfl rfl rfl rfl rfl
  · rw [appendIfRoom_of_full (s := found) (by rw [slots]; exact Nat.lt_of_not_le free)]
    simp only [v, if_neg free]
    rfl

theorem ownSetMode_same {s : State} {mode : StationMode} (h : s.time.stationMode = mode) :
    ownSetMode mode s = accept (.modeSet s.time.stationMode mode) s := by
  rw [ownSetMode, if_pos h, h]

theorem ownSetMode_changes {s : State} {mode : StationMode} (h : s.time.stationMode ≠ mode) :
    ownSetMode mode s
      = accept (.modeSet s.time.stationMode mode) { s with time := { s.time with stationMode := mode } } := if_neg h

/-- Settles O40: the clock written and then its record appended; the mode by whether it is the one in force. -/
theorem clockSetAndSetMode : Obligations.ClockSetAndSetMode := by
  unfold Obligations.ClockSetAndSetMode
  refine ⟨fun s p bytes new h => ?_, fun s p bytes mode h => ?_⟩
  · intro old u
    let found := s.endRequest p (bytes.length + 1)
    have grows : PortsGrow (ownClockSet new found).station found := (appendIfRoom_grows ..).trans (.of_ports rfl)
    obtain ⟨answered, ends, kept, -⟩ := serve_accepted h (owner := ownClockSet) rfl rfl grows.follow
    exact ⟨_, rfl, answered, kept, endsAs_congr ends (appendIfRoom_spelled u found.ports rfl rfl)⟩
  · by_cases same : s.time.stationMode = mode
    · obtain ⟨answered, informs⟩ :=
        JournalLaws.serve_informs h rfl (ownSetMode_same (s := s.endRequest p (bytes.length + 1)) same)
      exact ⟨_, rfl, answered, informs.2.2, fun _ => informs, fun other => absurd same other⟩
    · obtain ⟨answered, ends, kept, -⟩ := serve_accepted h rfl
        (ownSetMode_changes (s := s.endRequest p (bytes.length + 1)) same) (.of_ports rfl)
      exact ⟨_, rfl, answered, kept, fun other => absurd other same, fun _ => endsAs_congr ends rfl⟩

end Sys2Proof.Machine.ClockLaws
end

section
/-! PROOFS. The hold, the cold reset and FACTORY_CLEAR (R162 to R164, R166, R177, R178, R180, R184). -/

namespace Sys2Proof.Machine.ResetLaws

open Sys2Proof.Machine.Laws

/-! ## The port units rewritten -/

@[simp] theorem mapPorts_get (f : PortUnit → PortUnit) (u : PortUnits) (q : Port) : (mapPorts f u).get q = f (u.get q) := by
  cases q <;> rfl

theorem leaveHold_get (kinds : Port → NoticeSet) (u : PortUnits) (q : Port) :
    (u.leaveHold kinds).get q = ((u.get q).afresh (kinds q)).settleTransfer := by
  cases q <;> rfl

/-- At a reset every port has the same unit (R177, R184). -/
theorem reset_port (q : Port) : State.reset.port q = PortUnit.cold := by cases q <;> rfl

/-- The set of RESET_SEEN alone is the cold unit's (R184). -/
theorem resetSeen_pending : noticeSetOf [.resetSeen] = PortUnit.cold.pendingSet := by decide

theorem lineOf_cold : PortUnit.cold.lineOf = true := by decide

/-- A port unit right after a cold reset is the cold one, but for a SPOILED transfer and data out (R177, R184). -/
theorem afresh_settleTransfer (u : PortUnit) :
    (u.afresh (noticeSetOf [.resetSeen])).settleTransfer
      = { PortUnit.cold with transfer := if u.transfer = .spoiled then .spoiled else .quiet, dataOut := u.dataOut } := by
  rw [resetSeen_pending]
  rfl

/-! ## The hold -/

theorem spoil_port (s : State) (p q : Port) :
    (s.spoil p).port q = { s.port q with transfer := if q = p then .spoiled else (s.port q).transfer } := by
  unfold State.spoil
  by_cases h : q = p
  · subst h
    rw [setPort_port_self, if_pos rfl]
  · rw [setPort_port_ne _ _ h, if_neg h]

/-- The transfers under way as the hold begins are SPOILED, and no other (R177). -/
theorem spoilAll_port (l : List Port) (s : State) (q : Port) :
    (l.foldl State.spoil s).port q
      = { s.port q with transfer := if q ∈ l then .spoiled else (s.port q).transfer } := by
  induction l generalizing s with
  | nil => simp
  | cons p ps ih =>
    rw [List.foldl_cons, ih, spoil_port]
    by_cases first : q = p <;> simp [first]

theorem spoilAll_eq (l : List Port) (s : State) :
    l.foldl State.spoil s = { s with ports := (l.foldl State.spoil s).ports } := by
  induction l generalizing s with
  | nil => rfl
  | cons p ps ih =>
    rw [List.foldl_cons]
    exact ih (s.spoil p)

/-- The timebase as the hold begins: one of the two inputs that hold the part is asserted (R162). -/
def holdTime (cause : HoldCause) (time : Timebase) : Timebase :=
  match cause with
  | .resetInput => { time with resetInput := true, handed := noneHanded }
  | .mainSupply => { time with mainLow := true, handed := noneHanded }

/-- The station as the hold begins, its attention lines not yet released. -/
def holdBegun (cause : HoldCause) (underWay : List Port) (s : State) : State :=
  underWay.foldl State.spoil { s with time := holdTime cause s.time }

theorem execResetHold_begins (cause : HoldCause) (underWay : List Port) (s : State) :
    exec (.resetHold cause underWay) s
      = .next { holdBegun cause underWay s with
          ports := mapPorts (fun u => { u with attention := false }) (holdBegun cause underWay s).ports } := by
  cases cause <;> rfl

theorem holdBegun_eq (cause : HoldCause) (underWay : List Port) (s : State) :
    holdBegun cause underWay s
      = { s with time := holdTime cause s.time, ports := (holdBegun cause underWay s).ports } := spoilAll_eq ..

theorem holdTime_eq (cause : HoldCause) (time : Timebase) :
    holdTime cause time
      = { time with resetInput := (holdTime cause time).resetInput, mainLow := (holdTime cause time).mainLow,
                    handed := noneHanded } := by
  cases cause <;> rfl

theorem holdTime_holds (cause : HoldCause) (time : Timebase) :
    ((holdTime cause time).resetInput || (holdTime cause time).mainLow) = true := by
  cases cause
  · rfl
  · exact Bool.or_true _

/-- Settles O48: the hold writes the timebase and the port units, and each other event its port or flag in its setting. -/
theorem holdEvents : Obligations.HoldEvents := by
  unfold Obligations.HoldEvents
  have out : ∀ {s : State}, s.held = false → ¬ s.held = true := fun h => by simp [h]
  refine ⟨fun s cause underWay => ?_, fun s h => if_pos h, fun s h => if_neg (out h), fun s p h => if_pos h,
    fun s p h => if_neg (out h), fun s p h => if_pos h, fun s p h => if_neg h⟩
  have begun := holdBegun_eq cause underWay s
  have time : (holdBegun cause underWay s).time = holdTime cause s.time := (congrArg State.time begun :)
  refine ⟨_, execResetHold_begins cause underWay s, ?_, ?_, ?_, fun q => ?_⟩
  · show ((holdBegun cause underWay s).time.resetInput || (holdBegun cause underWay s).time.mainLow) = true
    rw [time]
    exact holdTime_holds cause s.time
  · conv_lhs => rw [begun]
    rw [time]
  · show (holdBegun cause underWay s).time = { s.time with
      resetInput := (holdBegun cause underWay s).time.resetInput
      mainLow := (holdBegun cause underWay s).time.mainLow
      handed := noneHanded }
    rw [time]
    exact holdTime_eq cause s.time
  · have spoiled : (holdBegun cause underWay s).port q = _ := spoilAll_port ..
    exact (mapPorts_get _ _ q).trans (congrArg (fun u => { u with attention := false }) spoiled)

/-! ## The cold reset and FACTORY_CLEAR -/

theorem execColdReset_idle {s : State} (h : s.held = false ∨ s.time.retention = true) : exec .coldReset s = .next s := by
  refine if_neg ?_
  rcases h with h | h <;> simp [h]

theorem execColdReset_leaves {s : State} (held : s.held = true) (lost : s.time.retention = false) :
    exec .coldReset s
      = .next { State.reset with pending := s.pending, ports := s.ports.leaveHold coldPending } :=
  if_pos (by simp [held, lost])

/-- Neither input holds a part that takes a request (R162, R166). -/
theorem inputs_of_ready {s : State} {p : Port} (h : s.ready p) :
    s.time.resetInput = false ∧ s.time.mainLow = false := Bool.or_eq_false_iff.1 h.1

/-- A FACTORY_CLEAR leaves the cold reset's records under the clock and the retention flag it found (R163, R164). -/
theorem factoryClear_eq {s : State} {p : Port} (h : s.ready p) :
    s.factoryClear =
      { State.reset with
        pending := s.pending
        time := { State.reset.time with clock := s.time.clock, clockValid := s.time.clockValid,
                                        retention := s.time.retention }
        ports := s.factoryClear.ports } := by
  obtain ⟨input, supply⟩ := inputs_of_ready h
  unfold State.factoryClear
  rw [input, supply]
  rfl

theorem factoryClear_port (s : State) (q : Port) :
    s.factoryClear.port q
      = { PortUnit.cold with transfer := (s.port q).transfer, dataOut := (s.port q).dataOut } := by
  refine (mapPorts_get _ _ q).trans ?_
  rw [resetSeen_pending]
  rfl

/-- The line of a port whose sets are the cold unit's is asserted, reckoned afresh or kept (R180, R184). -/
theorem reckonLine_cold (before : PortUnit) {after : PortUnit} (pending : after.pendingSet = PortUnit.cold.pendingSet)
    (enabled : after.enableSet = PortUnit.cold.enableSet) (line : after.attention = true) :
    (reckonLine before after).attention = true := by
  unfold reckonLine
  split
  · exact line
  · show after.lineOf = true
    unfold PortUnit.lineOf
    rw [pending, enabled]
    exact lineOf_cold

/-- The answer placed after a FACTORY_CLEAR leaves the sets and the lines as the clear wrote them (R184). -/
theorem placeAnswer_cleared (u : State) (p : Port) (f : AnswerFrame) (q : Port) :
    let x := (u.factoryClear.placeAnswer p f).port q
    x.pendingSet = PortUnit.cold.pendingSet ∧ x.enableSet = PortUnit.cold.enableSet ∧ x.attention = true := by
  intro x
  by_cases h : q = p
  · subst h
    rw [show x = _ from placeAnswer_port_self .., factoryClear_port]
    exact ⟨rfl, rfl, rfl⟩
  · rw [show x = _ from placeAnswer_port_ne _ _ h, factoryClear_port]
    exact ⟨rfl, rfl, rfl⟩

/-- The event of a FACTORY_CLEAR: the station cleared, with the answer placed in the slot and the lines reckoned. -/
theorem serve_factoryClear {s : State} {p : Port} {bytes : List Byte} (h : s.takes .factoryClear p bytes readEmpty ()) :
    serve .factoryClear p bytes readEmpty ownFactoryClear s
      = ((s.endRequest p (bytes.length + 1)).factoryClear.placeAnswer p
          ⟨ReqKind.factoryClear.code, tagOf bytes, .accept (.cleared s.time.clock s.time.clockValid)⟩).closeQuiet s := by
  have restarts : ∀ (u : State) (body : AcceptBody),
      u.afterAnswer p (ReqKind.factoryClear != .factoryClear) (.accept body) = u := fun u body => if_neg (by simp)
  rw [serve_takes h]
  unfold finishFrame ownFactoryClear
  dsimp only
  rw [restarts]
  rfl

/-- Settles O50: a cold reset by the hold and the retention flag; a FACTORY_CLEAR by the station cleared and the lines
reckoned at its end. -/
theorem coldResetAndFactoryClear : Obligations.ColdResetAndFactoryClear := by
  unfold Obligations.ColdResetAndFactoryClear
  refine ⟨fun s idle => execColdReset_idle idle, fun s held lost => ⟨_, execColdReset_leaves held lost, rfl, fun q => ?_⟩,
    fun s p bytes h => ?_⟩
  · rw [reset_port]
    exact (leaveHold_get _ _ q).trans (afresh_settleTransfer _)
  · let found := s.endRequest p (bytes.length + 1)
    let answer : AnswerFrame :=
      ⟨ReqKind.factoryClear.code, tagOf bytes, .accept (.cleared s.time.clock s.time.clockValid)⟩
    let v := found.factoryClear.placeAnswer p answer
    have port : ∀ q, (v.closeQuiet s).port q = reckonLine (s.port q) (v.port q) := reckonLines_port v s
    have follow : PortsFollow (v.closeQuiet s) v := closeQuiet_follow ..
    refine ⟨_, congrArg Host.Outcome.next (serve_factoryClear h), ⟨?_, ?_⟩, ?_, fun q => ?_⟩
    · rw [follow.slot, placeAnswer_port_self]
    · rw [follow.transfer, placeAnswer_port_self, factoryClear_port, endRequest_port_self]
    · have cleared := factoryClear_eq (s := s) h.1
      exact congrArg (fun u : State => { u with ports := (v.closeQuiet s).ports }) cleared
    · obtain ⟨pending, enabled, line⟩ := placeAnswer_cleared found p answer q
      obtain ⟨slot, transfer, pendingSet, enableSet, -⟩ := reckonLine_fields (s.port q) (v.port q)
      rw [port, pendingSet, enableSet, slot, transfer, reset_port]
      refine ⟨reckonLine_cold _ pending enabled line, pending, enabled, fun other => ?_⟩
      rw [placeAnswer_port_ne _ _ other, factoryClear_port, endRequest_port_ne _ _ other]
      exact ⟨rfl, rfl⟩

end Sys2Proof.Machine.ResetLaws
end

section
/-! PROOFS. CONFIGURE (R157 to R160). -/

namespace Sys2Proof.Machine.ConfigureLaws

open Sys2Proof.Machine.Laws RideLaws

/-! ## The checks -/

/-- The checks of R157 in their order. -/
def configureChecks (s : State) (req : ConfigureReq) : List (Bool × RefusalReason) :=
  let c := s.time.config
  let count := (req.apply c).dockCount
  let changes := decide ((req.apply c).segments ≠ c.segments)
  [(!c.configured && (req.station.isNone || req.segments.isNone), .outOfRange), (changes && s.busy, .stationBusy),
   (changes && decide (count < c.dockCount) && s.occupiedBeyond count, .dockState)]

theorem judgeConfigure_eq (s : State) (req : ConfigureReq) :
    s.judgeConfigure req = firstFailing (configureChecks s req) := by
  have segments : (req.apply s.time.config).segments = req.segments.getD s.time.config.segments := rfl
  unfold State.judgeConfigure configureChecks
  dsimp only
  rw [segments]
  cases req.segments with
  | none => simp [firstFailing]
  | some sizes => rfl

theorem ownConfigure_refused {s : State} {req : ConfigureReq} {reason : RefusalReason}
    (h : firstFailing (configureChecks s req) = some reason) : ownConfigure req s = refuse reason s := by
  rw [ownConfigure, judgeConfigure_eq, h]

theorem ownConfigure_accepted {s : State} {req : ConfigureReq} (h : firstFailing (configureChecks s req) = none) :
    ownConfigure req s = accept (.configured (req.apply s.time.config)) (s.configure req) := by
  rw [ownConfigure, judgeConfigure_eq, h]

/-! ## The queue without the docks removed -/

/-- A queued command once some docks are removed: they leave a RELOCK, which is withdrawn where it names no other (R160). -/
def withoutDocks (removed : List DockNo) (command : Command) : Option Command :=
  match command with
  | .relock docks =>
    let left := docks.filter (fun d => decide (d ∉ removed))
    if left = [] then none else some (.relock left)
  | .unlock .. | .batchUnlock .. | .readToken _ => some command

theorem withoutRelock_eq (d : DockNo) (c : Command) : c.withoutRelock d = withoutDocks [d] c := by
  cases c <;> simp only [Command.withoutRelock, withoutDocks]
  case relock docks =>
    rw [show docks.filter (fun x => x != d) = docks.filter (fun x => decide (x ∉ [d])) from
      List.filter_congr (fun x _ => by simp [bne, beq_eq_decide])]
    split
    · next h => rw [if_pos h]
    · next h => rw [if_neg (by rw [h]; simp), h]

/-- Docks removed in two runs are removed at once. -/
theorem withoutDocks_append (first rest : List DockNo) (c : Command) :
    (withoutDocks first c).bind (withoutDocks rest) = withoutDocks (first ++ rest) c := by
  cases c <;> simp only [withoutDocks, Option.bind_some]
  case relock docks =>
    have both : docks.filter (fun d => decide (d ∉ first ++ rest))
        = (docks.filter (fun d => decide (d ∉ first))).filter (fun d => decide (d ∉ rest)) := by
      rw [List.filter_filter]
      exact List.filter_congr (fun d _ => by simp [Bool.and_comm])
    rw [both]
    split_ifs with none_left none_both none_both
    · rfl
    · rw [none_left] at none_both
      exact absurd rfl none_both
    · simp only [Option.bind_some, withoutDocks, if_pos none_both]
    · simp only [Option.bind_some, withoutDocks, if_neg none_both]

/-- The removed docks leave the queue one after another; with none removed it stands. -/
theorem dropRelocks_queue (removed : List DockNo) (q : List Command) :
    removed.foldl (fun q d => q.filterMap (Command.withoutRelock d)) q
      = if removed = [] then q else q.filterMap (withoutDocks removed) := by
  induction removed generalizing q with
  | nil => rfl
  | cons d ds ih =>
    have head : q.filterMap (Command.withoutRelock d) = q.filterMap (withoutDocks [d]) :=
      List.filterMap_congr fun c _ => withoutRelock_eq d c
    rw [List.foldl_cons, ih, head, if_neg (List.cons_ne_nil d ds)]
    split
    · next last => rw [last]
    · rw [List.filterMap_filterMap]
      exact List.filterMap_congr fun c _ => withoutDocks_append [d] ds c

/-! ## The rail resized -/

/-- The rail after a change of the segment sizes, as the statement spells it (R159, R160). -/
theorem resize_spelled (before after : Nat) (r : Rail) :
    let removed := (List.finRange 64).filter (fun d : DockNo => decide (after ≤ d.val) && decide (d.val < before))
    r.resize before after =
      { r with
        docks := (r.resize before after).docks
        queue := if removed = [] then r.queue else r.queue.filterMap (withoutDocks removed)
        cursor := r.cursor.filter (fun d => decide (d.val < after)) } := by
  intro removed
  have queue : (r.resize before after).queue = if removed = [] then r.queue else r.queue.filterMap (withoutDocks removed) :=
    dropRelocks_queue ..
  have cursor : (r.resize before after).cursor = r.cursor.filter (fun d => decide (d.val < after)) := by
    show (match r.cursor with
      | some d => if after ≤ d.val then none else some d
      | none => none) = _
    cases r.cursor with
    | none => rfl
    | some d =>
      by_cases gone : after ≤ d.val
      · simp [gone, Option.filter]
      · simp [gone, Option.filter, Nat.lt_of_not_le gone]
  rw [← queue, ← cursor]
  rfl

theorem resize_dock (before after : Nat) (r : Rail) (d : DockNo) :
    (r.resize before after).docks[d] = resizeDock before after d r.docks[d] := mapDocks_get ..

/-! ## What an accepted CONFIGURE leaves -/

/-- A CONFIGURE writes the configuration, the rail and, for the notice of docks created, the ports (R159, R160). -/
theorem configure_eq (req : ConfigureReq) (s : State) :
    s.configure req =
      { s with
        time := { s.time with config := req.apply s.time.config }
        rail := (s.configure req).rail
        ports := (s.configure req).ports } := by
  unfold State.configure
  dsimp only
  split_ifs <;> rfl

theorem configure_same {req : ConfigureReq} {s : State} (h : (req.apply s.time.config).segments = s.time.config.segments) :
    s.configure req = { s with time := { s.time with config := req.apply s.time.config } } := if_pos h

/-- A change of the segments resizes the rail (R159, R160). -/
theorem configure_rail {req : ConfigureReq} {s : State} (h : (req.apply s.time.config).segments ≠ s.time.config.segments) :
    (s.configure req).rail = s.rail.resize s.time.config.dockCount (req.apply s.time.config).dockCount := by
  unfold State.configure
  dsimp only
  rw [if_neg h]
  split_ifs <;> rfl

theorem configure_account (req : ConfigureReq) (s : State) :
    (s.configure req).rail.opens = s.rail.opens ∧ (s.configure req).rail.awaited = s.rail.awaited := by
  by_cases h : (req.apply s.time.config).segments = s.time.config.segments
  · rw [configure_same h]
    exact ⟨rfl, rfl⟩
  · rw [configure_rail h]
    exact ⟨rfl, rfl⟩

theorem configure_grows (req : ConfigureReq) (s : State) : PortsGrow (s.configure req) s := by
  unfold State.configure
  dsimp only
  split_ifs
  · exact .of_ports rfl
  · exact (notify_grows ..).trans (.of_ports rfl)
  · exact .of_ports rfl

/-- Docks created ask for a census (R160). -/
theorem configure_wantsCensus {req : ConfigureReq} {s : State}
    (h : (req.apply s.time.config).segments ≠ s.time.config.segments)
    (more : s.time.config.dockCount < (req.apply s.time.config).dockCount) :
    (s.configure req).notified .rail .censusWanted := by
  unfold State.configure
  dsimp only
  rw [if_neg h, if_pos more]
  exact notify_notified ..

theorem configure_uplink {s : State} {p : Port} {bytes : List Byte} {req : ConfigureReq}
    (h : s.takes .configure p bytes readConfigure req) : p = .uplink := by
  have allowed := takes_allowed h
  cases p
  case uplink => rfl
  all_goals cases allowed

/-- Settles O41: the checks are the owner's, and an accepted request is read off the station it leaves. -/
theorem configureJudgedAndApplied : Obligations.ConfigureJudgedAndApplied := by
  unfold Obligations.ConfigureJudgedAndApplied
  intro s p bytes req h c c' changes removed checks
  let found := s.endRequest p (bytes.length + 1)
  refine ⟨fun reason failing => ⟨_, rfl, serve_refused h (ownConfigure_refused (s := found) failing)⟩,
    fun passing => ?_⟩
  have own : ownConfigure req found = accept (.configured c') (found.configure req) := ownConfigure_accepted passing
  obtain ⟨answered, ends, kept, notified⟩ := serve_accepted h rfl own (configure_grows req found).follow
  have written := ends
  rw [configure_eq] at written
  obtain ⟨opens, awaited⟩ := configure_account req found
  obtain ⟨-, kept_opens, -⟩ := sweptFrom_rail ends.2
  have changed : changes = true → (req.apply found.time.config).segments ≠ found.time.config.segments := of_decide_eq_true
  refine ⟨_, rfl, answered, kept, ?_, fun same => ?_, fun change d => ?_, fun change more => ?_, fun change => ?_,
    kept_opens.trans opens, (endsAs_awaited ends).trans awaited, (endsAs_cards written :), (endsAs_faults written :),
    (endsAs_rides written :), (endsAs_fares written :), (endsAs_vans written :), (endsAs_records written :),
    (endsAs_reserved written :)⟩
  · rw [endsAs_time written, configure_uplink h]
    rfl
  · rw [configure_same (s := found) (not_not.1 (of_decide_eq_false same))] at ends
    exact endsAs_congr ends rfl
  · rw [endsAs_dock ends, State.dock, configure_rail (changed change)]
    exact resize_dock ..
  · exact notified _ _ (configure_wantsCensus (changed change) more)
  · have spelled := (configure_rail (changed change)).trans (resize_spelled ..)
    rw [spelled] at written
    rw [endsAs_docks written]
    exact endsAs_congr written rfl

end Sys2Proof.Machine.ConfigureLaws
end
